-- ==== Sys2Proof/Word.lean ====
section
/-! DEFINITION. The words of the ZJ2604's interface (bytes and two-byte fields), the four host ports, sets of ports and
a record that holds one thing for each port. -/

namespace Sys2Proof

/-- One byte of a frame (R178). -/
abbrev Byte := BitVec 8

/-- A two-byte field, sent most significant byte first (R178). -/
abbrev Half := BitVec 16

/-- The four host ports. -/
inductive Port where
  | h0 | h1 | h2 | h3
  deriving DecidableEq, Repr

/-- The port number that codes a port (R178). -/
def Port.index : Port → Fin 4
  | .h0 => 0 | .h1 => 1 | .h2 => 2 | .h3 => 3

/-- The port that a two-bit number names: the straps SUP1 SUP0 (R166) and the port field of a ticket (Table 10-5). -/
def Port.ofBits (b : BitVec 2) : Port :=
  if b = 0#2 then .h0 else if b = 1#2 then .h1 else if b = 2#2 then .h2 else .h3

/-- The ports in their numbering, which is also the head of the rotation order (R31). -/
def Port.all : List Port := [.h0, .h1, .h2, .h3]

/-- A set of ports: bit n stands for port Hn (R178). -/
abbrev PortSet := BitVec 4

/-- Membership of a port in a set of ports (R178). -/
def PortSet.has (ps : PortSet) (p : Port) : Bool := ps.getLsbD p.index.val

/-- One thing for each of the four ports. -/
structure PerPort (α : Type) where
  h0 : α
  h1 : α
  h2 : α
  h3 : α
  deriving DecidableEq, Repr

/-- The thing held for a port. -/
def PerPort.get {α : Type} (x : PerPort α) : Port → α
  | .h0 => x.h0 | .h1 => x.h1 | .h2 => x.h2 | .h3 => x.h3

/-- The record with the thing held for one port replaced. -/
def PerPort.set {α : Type} (x : PerPort α) (p : Port) (v : α) : PerPort α :=
  match p with
  | .h0 => { x with h0 := v }
  | .h1 => { x with h1 := v }
  | .h2 => { x with h2 := v }
  | .h3 => { x with h3 := v }

/-- The same thing for every port. -/
def PerPort.same {α : Type} (v : α) : PerPort α := ⟨v, v, v, v⟩

/-- Bytes of a two-byte field, most significant first (R178). -/
def Half.bytes (w : Half) : List Byte := [w.extractLsb' 8 8, w.extractLsb' 0 8]

/-- A two-byte field from its bytes, most significant first (R178). -/
def Half.ofBytes (hi lo : Byte) : Half := hi ++ lo

end Sys2Proof
end

