-- ==== Sys2Proof/Config.lean ====
section
/-! DEFINITION. The figures fixed in silicon (Table 0-3 and the chapters that own them). The manual leaves no VALUE open
that an instruction produces, so this file holds no free value (an opaque constant). -/

namespace Sys2Proof.Config

/-- Slots of a port that count against its reserve (R8). -/
def reserve : Nat := 8

/-- Slots shared among all ports (R8). -/
def sharedSlots : Nat := 16

/-- Entries of a notice queue other than OVERFLOW (R138). -/
def noticeRoom : Nat := 15

/-- Largest lost count and largest failure counts (R113, R85, R140). -/
def countMax : Nat := 255

/-- Failed recovery attempts in a row at which the bus is FAULTED (R129). -/
def faultAttempts : Nat := 3

/-- Clock pulses of a recovery attempt, at most (R128). -/
def recoveryPulses : Nat := 9

/-- The idle confirmation time, in ms (R114). -/
def idleConfirmation : Nat := 1

/-- The largest age a MIRROR READ reports (R71). -/
def ageMax : Nat := 65535

/-- Lowest and highest target address (R75). -/
def addressMin : Nat := 0x08
def addressMax : Nat := 0x77

/-- Longest write data and read data of a transfer (R5). -/
def dataMax : Nat := 32

/-- Longest mirror value (R51). -/
def mirrorValueMax : Nat := 16

/-- Shortest and longest poll period, in ms (R51). -/
def periodMin : Nat := 5
def periodMax : Nat := 60000

/-- The fixed fields of INFO (Table 10-9): part code, revision, slots, mirror entries, target entries, queue depth. -/
def infoFixed : List Byte := [0x26#8, 0x04#8, 0x01#8, 0x30#8, 0x18#8, 0x20#8, 0x10#8]

/-- The default notice mask: all seven kinds (R136, section 10.8). -/
def defaultMask : Byte := 0x7F#8

/-- The values that DECLARE TARGET's default code 0 stands for (R178). -/
def defaultStretch : Nat := 10
def defaultThreshold : Nat := 4
def defaultProbeInterval : Nat := 500

end Sys2Proof.Config
end

