-- ==== Sys2Proof/Syntax.lean ====
section
/-! DEFINITION. The commands: one constructor of `Instr` for each row of spec/opcode_table.json, with what the host sends
(argument bytes as received) or what the pins and the field bus bring (line levels, straps, what the target did). -/

namespace Sys2Proof

/-- Number of a slot of the pool (R1). -/
abbrev SlotId := Fin 48
/-- Number of a mirror entry (R47). -/
abbrev EntryId := Fin 24
/-- Index of a target entry (R74). -/
abbrev TargetId := Fin 32

/-- Levels of the two field bus lines as the device reads them; true is high (R110). -/
structure Lines where
  fcl : Bool
  fda : Bool
  deriving DecidableEq, Repr

/-- One of the two field bus lines. -/
inductive Line where
  | fcl | fda
  deriving DecidableEq, Repr

/-- A change of one field bus line (R114). -/
inductive LineChange where
  | fclFalls | fclRises | fdaFalls | fdaRises
  deriving DecidableEq, Repr

/-- The six bytes of a mirror key as sent (notes on Table 10-3). -/
structure KeyArgs where
  addr : Byte
  indexLen : Byte
  index1 : Byte
  index2 : Byte
  index3 : Byte
  len : Byte
  deriving DecidableEq, Repr

/-- The argument bytes of SUBMIT as sent (Table 10-4): four fixed bytes, then the counted index and data bytes. -/
structure SubmitArgs where
  control : Byte
  addr : Byte
  lengths : Byte
  readLen : Byte
  tail : List Byte
  deriving DecidableEq, Repr

/-- The eight argument bytes of DECLARE TARGET as sent (Table 10-3). -/
structure DeclareArgs where
  addr : Byte
  speed : Byte
  stretch : Byte
  threshold : Byte
  probeInterval : Half
  readSet : Byte
  writeSet : Byte
  deriving DecidableEq, Repr

/-- Work that ages while it waits (R40): a QUEUED slot, a due poll or a due probe. -/
inductive Waiting where
  | slot (n : SlotId)
  | poll (e : EntryId)
  | probe (t : TargetId)
  deriving DecidableEq, Repr

/-- How far an address attempt had come when it was cut short: whether every address byte in it was acknowledged, the
write data bytes acknowledged, and the read bytes received (R124, R125). -/
structure Progress where
  addressed : Bool
  written : Nat
  read : List Byte
  deriving DecidableEq, Repr

/-- What brought a transfer to its STOP, as seen on the field bus (R121, R122, R123, R126, R127). -/
inductive TransferEnd where
  /-- every phase of the transfer was carried out; the bytes read -/
  | finished (data : List Byte)
  /-- an address byte was left unacknowledged -/
  | addressNack
  /-- an index or write data byte was left unacknowledged; the write data bytes acknowledged before it -/
  | dataNack (written : Nat)
  /-- the abort-pending flag was honoured at a boundary; the write data bytes acknowledged and the bytes read by then -/
  | aborted (written : Nat) (data : List Byte)
  deriving DecidableEq, Repr

/-- The commands: host commands (a header completing on a port), frame events, resets, timer expiries and the events of
the field bus. -/
inductive Instr where
  | info (p : Port)
  | status (p : Port)
  | attach (p : Port)
  | detach (p : Port)
  | repeatResponse (p : Port)
  | getParameter (p : Port) (ident : Byte)
  | submit (p : Port) (args : SubmitArgs)
  | cancel (p : Port) (ticket : Half)
  | fetch (p : Port) (ticket : Half) (flags : Byte)
  | readNotice (p : Port)
  | setNoticeMask (p : Port) (mask : Byte)
  | lock (p : Port) (addr : Byte) (lease : Half) (flags : Byte)
  | renew (p : Port) (addr : Byte)
  | unlock (p : Port) (addr : Byte)
  | mirrorDefine (p : Port) (key : KeyArgs) (period : Half) (flags : Byte) (mask : Half)
  | mirrorDrop (p : Port) (entry : Byte)
  | mirrorFind (p : Port) (key : KeyArgs)
  | mirrorRead (p : Port) (entry : Byte)
  | targetQuery (p : Port) (addr : Byte)
  | declareTarget (p : Port) (args : DeclareArgs)
  | removeTarget (p : Port) (addr : Byte)
  | clearQuarantine (p : Port) (addr : Byte)
  | forceUnlock (p : Port) (addr : Byte)
  | setParameter (p : Port) (ident : Byte) (value : Half)
  | evictPort (p : Port) (named : Byte)
  | busReset (p : Port)
  | resetPart (p : Port)
  | unknownCommand (p : Port) (code : Byte)
  | checkError (p : Port)
  | frameOpen (p : Port)
  | frameAbandoned (p : Port)
  | frameEnd (p : Port)
  | resetPartTaken (p : Port) (lines : Lines)
  | powerOnReset
  | powerOnResetEnd (straps : BitVec 2) (lines : Lines) (selected : PortSet)
  | nrstLow
  | nrstRelease (straps : BitVec 2) (lines : Lines) (selected : PortSet)
  | classAgingExpiry (w : Waiting)
  | lockLeaseExpiry (t : TargetId)
  | mirrorPollDue (e : EntryId)
  | staleLimitExpiry (e : EntryId)
  | probeDueExpiry (t : TargetId)
  | stretchTimeout (progress : Progress)
  | hangTimerExpiry
  | nextRecoveryAttempt
  | idleConfirmationExpiry
  | faultRetryExpiry
  | transferCompletion (how : TransferEnd)
  | arbitrationLoss (progress : Progress)
  | start
  | lineActivityBeforeStart (line : Line)
  | recoveryAttemptEnd (lines : Lines)
  | foreignStart
  | foreignStop
  | lineActivity (change : LineChange)
  | millisecondBoundary
  | addressAttemptNack
  | clockStretchStart
  | clockStretchEnd
  | statusByteShiftedOut (p : Port)
  | ncsRiseInIdle (p : Port)
  deriving DecidableEq, Repr

end Sys2Proof
end

