-- ==== Sys2Proof/WellFormed.lean ====
section
/-! DEFINITION. Which terms of `Instr` stand for a command: a SUBMIT whose counted bytes are as many as its length fields
state (R150, R181), and an unknown command whose code names no command (R150). Every other term does. -/

namespace Sys2Proof

/-- The 27 command codes (Table 10-3). -/
def commandCodes : List Byte :=
  [0x01#8, 0x02#8, 0x03#8, 0x04#8, 0x05#8, 0x06#8, 0x10#8, 0x11#8, 0x12#8, 0x18#8, 0x19#8, 0x20#8, 0x21#8, 0x22#8,
   0x28#8, 0x29#8, 0x2A#8, 0x2B#8, 0x30#8, 0x40#8, 0x41#8, 0x42#8, 0x43#8, 0x44#8, 0x45#8, 0x46#8, 0x47#8]

/-- The index length a SUBMIT states: bits 7 to 6 of its third descriptor byte (Table 10-4). -/
def SubmitArgs.indexLength (a : SubmitArgs) : Nat := (a.lengths.extractLsb' 6 2).toNat

/-- The write length a SUBMIT states: bits 5 to 0 of its third descriptor byte (Table 10-4). -/
def SubmitArgs.writeLength (a : SubmitArgs) : Nat := (a.lengths.extractLsb' 0 6).toNat

/-- Whether a term stands for a command that a host can send or an event that can be named. -/
def Instr.wellFormed : Instr → Bool
  | .info _ => true
  | .status _ => true
  | .attach _ => true
  | .detach _ => true
  | .repeatResponse _ => true
  | .getParameter _ _ => true
  | .submit _ a => a.tail.length == a.indexLength + a.writeLength
  | .cancel _ _ => true
  | .fetch _ _ _ => true
  | .readNotice _ => true
  | .setNoticeMask _ _ => true
  | .lock _ _ _ _ => true
  | .renew _ _ => true
  | .unlock _ _ => true
  | .mirrorDefine _ _ _ _ _ => true
  | .mirrorDrop _ _ => true
  | .mirrorFind _ _ => true
  | .mirrorRead _ _ => true
  | .targetQuery _ _ => true
  | .declareTarget _ _ => true
  | .removeTarget _ _ => true
  | .clearQuarantine _ _ => true
  | .forceUnlock _ _ => true
  | .setParameter _ _ _ => true
  | .evictPort _ _ => true
  | .busReset _ => true
  | .resetPart _ => true
  | .unknownCommand _ code => !commandCodes.contains code
  | .checkError _ => true
  | .frameOpen _ => true
  | .frameAbandoned _ => true
  | .frameEnd _ => true
  | .resetPartTaken _ _ => true
  | .powerOnReset => true
  | .powerOnResetEnd _ _ _ => true
  | .nrstLow => true
  | .nrstRelease _ _ _ => true
  | .classAgingExpiry _ => true
  | .lockLeaseExpiry _ => true
  | .mirrorPollDue _ => true
  | .staleLimitExpiry _ => true
  | .probeDueExpiry _ => true
  | .stretchTimeout _ => true
  | .hangTimerExpiry => true
  | .nextRecoveryAttempt => true
  | .idleConfirmationExpiry => true
  | .faultRetryExpiry => true
  | .transferCompletion _ => true
  | .arbitrationLoss _ => true
  | .start => true
  | .lineActivityBeforeStart _ => true
  | .recoveryAttemptEnd _ => true
  | .foreignStart => true
  | .foreignStop => true
  | .lineActivity _ => true
  | .millisecondBoundary => true
  | .addressAttemptNack => true
  | .clockStretchStart => true
  | .clockStretchEnd => true
  | .statusByteShiftedOut _ => true
  | .ncsRiseInIdle _ => true

end Sys2Proof
end

