-- ==== Sys2Proof/Decode.lean ====
section
/-! DEFINITION. Reading a command header from the bytes of a frame, its check byte included, and writing one
(R150, R151, R178, R180, R181). spec/opcode_table.json gives its rows no bits, so no word of it spells a command. -/

namespace Sys2Proof

/-- The command that a word of spec/opcode_table.json spells: none, since the table gives no row any bits. -/
def decodeTableWord (_nbits _w : Nat) : Option Instr := none

/-- One of the eight steps of the check byte (section 10.3, step 3). -/
def crcStep (v : Byte) : Byte := if v.msb then (v <<< 1) ^^^ 0x07#8 else v <<< 1

/-- The check byte's value after one more byte (section 10.3, steps 2 and 3). -/
def crcByte (v b : Byte) : Byte :=
  crcStep (crcStep (crcStep (crcStep (crcStep (crcStep (crcStep (crcStep (v ^^^ b))))))))

/-- The check byte of a header or a response (R151, section 10.3). -/
def crc8 (bytes : List Byte) : Byte := bytes.foldl crcByte 0xFF#8

/-- Argument bytes of a command other than SUBMIT; a code that names no command takes none (R150, Table 10-3). -/
def argumentCount (code : Byte) : Nat :=
  match code.toNat with
  | 0x06 => 1 | 0x11 => 2 | 0x12 => 3 | 0x19 => 1 | 0x20 => 4 | 0x21 => 1 | 0x22 => 1 | 0x28 => 11 | 0x29 => 1
  | 0x2A => 6 | 0x2B => 1 | 0x30 => 1 | 0x40 => 8 | 0x41 => 1 | 0x42 => 1 | 0x43 => 1 | 0x44 => 3 | 0x45 => 1
  | _ => 0

/-- The number of code and argument bytes of a header, once the bytes that fix it have arrived (R150, R181). -/
def bodyLength : List Byte → Option Nat
  | [] => none
  | code :: args =>
    if code = 0x10#8 then
      match args with
      | control :: addr :: lengths :: _ =>
        let a : SubmitArgs := ⟨control, addr, lengths, 0#8, []⟩
        some (5 + a.indexLength + a.writeLength)
      | _ => none
    else some (1 + argumentCount code)

/-- The command of a code byte and its argument bytes, on a port (Table 10-3). -/
def decodeBody (p : Port) : List Byte → Option Instr
  | [] => none
  | code :: args =>
    match code.toNat with
    | 0x01 => some (.info p)
    | 0x02 => some (.status p)
    | 0x03 => some (.attach p)
    | 0x04 => some (.detach p)
    | 0x05 => some (.repeatResponse p)
    | 0x06 => match args with | [a] => some (.getParameter p a) | _ => none
    | 0x10 => match args with | c :: a :: l :: r :: tail => some (.submit p ⟨c, a, l, r, tail⟩) | _ => none
    | 0x11 => match args with | [a, b] => some (.cancel p (Half.ofBytes a b)) | _ => none
    | 0x12 => match args with | [a, b, f] => some (.fetch p (Half.ofBytes a b) f) | _ => none
    | 0x18 => some (.readNotice p)
    | 0x19 => match args with | [m] => some (.setNoticeMask p m) | _ => none
    | 0x20 => match args with | [a, x, y, f] => some (.lock p a (Half.ofBytes x y) f) | _ => none
    | 0x21 => match args with | [a] => some (.renew p a) | _ => none
    | 0x22 => match args with | [a] => some (.unlock p a) | _ => none
    | 0x28 =>
      match args with
      | [a, n, i, j, k, l, x, y, f, m, o] =>
        some (.mirrorDefine p ⟨a, n, i, j, k, l⟩ (Half.ofBytes x y) f (Half.ofBytes m o))
      | _ => none
    | 0x29 => match args with | [e] => some (.mirrorDrop p e) | _ => none
    | 0x2A => match args with | [a, n, i, j, k, l] => some (.mirrorFind p ⟨a, n, i, j, k, l⟩) | _ => none
    | 0x2B => match args with | [e] => some (.mirrorRead p e) | _ => none
    | 0x30 => match args with | [a] => some (.targetQuery p a) | _ => none
    | 0x40 =>
      match args with
      | [a, s, t, q, x, y, r, w] => some (.declareTarget p ⟨a, s, t, q, Half.ofBytes x y, r, w⟩)
      | _ => none
    | 0x41 => match args with | [a] => some (.removeTarget p a) | _ => none
    | 0x42 => match args with | [a] => some (.clearQuarantine p a) | _ => none
    | 0x43 => match args with | [a] => some (.forceUnlock p a) | _ => none
    | 0x44 => match args with | [i, x, y] => some (.setParameter p i (Half.ofBytes x y)) | _ => none
    | 0x45 => match args with | [n] => some (.evictPort p n) | _ => none
    | 0x46 => some (.busReset p)
    | 0x47 => some (.resetPart p)
    | _ => some (.unknownCommand p code)

/-- The command that the bytes shifted in on a port make, once its header is complete; none while it is not. Bytes beyond
the check byte are ignored (R147, R150, R151, R181). -/
def decodeHeader (p : Port) (bytes : List Byte) : Option Instr :=
  match bodyLength bytes with
  | none => none
  | some n =>
    match bytes.drop n with
    | [] => none
    | check :: _ => if check = crc8 (bytes.take n) then decodeBody p (bytes.take n) else some (.checkError p)

/-- The six bytes of a mirror key (notes on Table 10-3). -/
def KeyArgs.bytes (k : KeyArgs) : List Byte := [k.addr, k.indexLen, k.index1, k.index2, k.index3, k.len]

/-- The code and argument bytes of a host command (Table 10-3); none for what no header spells. -/
def encodeBody : Instr → Option (List Byte)
  | .info _ => some [0x01#8]
  | .status _ => some [0x02#8]
  | .attach _ => some [0x03#8]
  | .detach _ => some [0x04#8]
  | .repeatResponse _ => some [0x05#8]
  | .getParameter _ i => some [0x06#8, i]
  | .submit _ a => some ([0x10#8, a.control, a.addr, a.lengths, a.readLen] ++ a.tail)
  | .cancel _ t => some ([0x11#8] ++ t.bytes)
  | .fetch _ t f => some ([0x12#8] ++ t.bytes ++ [f])
  | .readNotice _ => some [0x18#8]
  | .setNoticeMask _ m => some [0x19#8, m]
  | .lock _ a l f => some ([0x20#8, a] ++ l.bytes ++ [f])
  | .renew _ a => some [0x21#8, a]
  | .unlock _ a => some [0x22#8, a]
  | .mirrorDefine _ k t f m => some ([0x28#8] ++ k.bytes ++ t.bytes ++ [f] ++ m.bytes)
  | .mirrorDrop _ e => some [0x29#8, e]
  | .mirrorFind _ k => some ([0x2A#8] ++ k.bytes)
  | .mirrorRead _ e => some [0x2B#8, e]
  | .targetQuery _ a => some [0x30#8, a]
  | .declareTarget _ d =>
    some ([0x40#8, d.addr, d.speed, d.stretch, d.threshold] ++ d.probeInterval.bytes ++ [d.readSet, d.writeSet])
  | .removeTarget _ a => some [0x41#8, a]
  | .clearQuarantine _ a => some [0x42#8, a]
  | .forceUnlock _ a => some [0x43#8, a]
  | .setParameter _ i v => some ([0x44#8, i] ++ v.bytes)
  | .evictPort _ n => some [0x45#8, n]
  | .busReset _ => some [0x46#8]
  | .resetPart _ => some [0x47#8]
  | .unknownCommand _ c => some [c]
  | _ => none

/-- The header of a host command: code, arguments and check byte (R150, R151). -/
def encodeHeader (i : Instr) : Option (List Byte) := (encodeBody i).map fun b => b ++ [crc8 b]

/-- The port on which a host command's header completes; none for an event that is no header. -/
def headerPort : Instr → Option Port
  | .info p | .status p | .attach p | .detach p | .repeatResponse p | .getParameter p _ | .submit p _ | .cancel p _
  | .fetch p _ _ | .readNotice p | .setNoticeMask p _ | .lock p _ _ _ | .renew p _ | .unlock p _
  | .mirrorDefine p _ _ _ _ | .mirrorDrop p _ | .mirrorFind p _ | .mirrorRead p _ | .targetQuery p _
  | .declareTarget p _ | .removeTarget p _ | .clearQuarantine p _ | .forceUnlock p _ | .setParameter p _ _
  | .evictPort p _ | .busReset p | .resetPart p | .unknownCommand p _ | .checkError p => some p
  | _ => none

end Sys2Proof
end

