-- ==== Sys2Proof/Machine/State.lean ====
section
/-! DEFINITION. The state of the ZJ2604, block by block (Table 0-2), as plain data, and the state after reset (Table 9-3). -/

namespace Sys2Proof.Machine

open Sys2Proof

/-! ## Time -/

/-- A timer: its set point, counted in millisecond boundaries since the last reset, and its length in ms (R27). -/
structure Timer where
  setAt : Nat
  length : Nat
  deriving DecidableEq, Repr

/-! ## Codes shared by the blocks -/

/-- The classes of work (R40). -/
inductive WorkClass where
  | urgent | normal | bulk
  deriving DecidableEq, Repr

/-- The kinds of transaction (R4). -/
inductive Kind where
  | write | read | indexedRead | probe
  deriving DecidableEq, Repr

/-- The outcomes of a transaction (R16, Table 10-14). -/
inductive TransferOutcome where
  | ok | addressNack | dataNack | stretchTimeout | busContended | busFault | aborted | lockLost | notLocked
  | targetQuarantined
  deriving DecidableEq, Repr

/-- The response codes (Table 10-6); HELD names the holder within its code. -/
inductive Code where
  | done | accepted | granted | waiting | cancelled | aborting | tooLate | notDone | empty | notFound
  | checkError | unknownCommand | notSupervisor | notAttached | badArgument | unknownTarget | notPermitted
  | quarantined | quotaExhausted | busFault | unknownTicket | tableFull | notSponsor | alreadyHeld | alreadyWaiting
  | notHolder | inUse | portDisabled | busy
  | held (holder : Port)
  deriving DecidableEq, Repr

/-! ## Slot pool (chapter 1) -/

/-- A descriptor: one field bus transaction (Table 1-6). The index length and the write length are those of the lists. -/
structure Descriptor where
  kind : Kind
  target : Byte
  index : List Byte
  data : List Byte
  readLen : Nat
  cls : WorkClass
  notify : Bool
  autoRelease : Bool
  underLock : Bool
  fence : Bool
  deriving DecidableEq, Repr

/-- The result of a request (Table 1-5). -/
structure Result where
  outcome : TransferOutcome
  bytesDone : Nat
  data : List Byte
  deriving DecidableEq, Repr

/-- The states of a slot that is not FREE (Table 1-4); the result is present only in DONE (Table 1-5). -/
inductive SlotState where
  | queued
  | active
  | done (result : Result)
  deriving DecidableEq, Repr

/-- The record of a slot that is not FREE, but for the issue number (Table 1-5). -/
structure Request where
  state : SlotState
  owner : Port
  generation : Byte
  orphan : Bool
  desc : Descriptor
  cls : WorkClass
  mark : Nat
  attempts : Nat
  losses : Nat
  abortPending : Bool
  deriving DecidableEq, Repr

/-- A slot: its issue number and, unless it is FREE, the request it holds (R1, R2). -/
structure Slot where
  issue : Byte
  held : Option Request
  deriving DecidableEq, Repr

/-! ## Dispatcher (chapter 2) -/

/-- The five participants in the rotation (R31). -/
inductive Participant where
  | host (p : Port)
  | maintenance
  deriving DecidableEq, Repr

/-- A rotation pointer for each class (R43). -/
structure Pointers where
  urgent : Participant
  normal : Participant
  bulk : Participant
  deriving DecidableEq, Repr

/-- The maintenance record of a due poll or probe: class, class mark and arbitration-loss count (R38), the due time by
which M chooses (R39), and whether the item has already been started once (R59). -/
structure Maint where
  cls : WorkClass
  mark : Nat
  losses : Nat
  due : Nat
  started : Bool
  deriving DecidableEq, Repr

/-! ## Mirror table (chapter 3) -/

/-- A mirror key (Table 3-3). The index length is that of the list. -/
structure Key where
  addr : Byte
  index : List Byte
  len : Nat
  deriving DecidableEq, Repr

/-- A sponsor record but for its port (R50). -/
structure Sponsor where
  period : Nat
  notify : Bool
  mask : Half
  deriving DecidableEq, Repr

/-- The states of an entry in use (Table 3-1). -/
inductive MirrorState where
  | priming | valid | stale | failed
  deriving DecidableEq, Repr

/-- A held value with its last-success time; the two are present together (R48). -/
structure HeldValue where
  bytes : List Byte
  time : Nat
  deriving DecidableEq, Repr

/-- The record of a mirror entry in use, but for the issue number (Table 3-3), its two timers (Table 2-1), the
maintenance record of its pending poll (R38), and the due time of a poll that fell due while the entry's poll was
running (R57). -/
structure MirrorUse where
  key : Key
  sponsors : PerPort (Option Sponsor)
  state : MirrorState
  nextDue : Option Nat
  lastStart : Option Nat
  value : Option HeldValue
  seqNo : Half
  lastOutcome : Option TransferOutcome
  dueTimer : Option Timer
  staleTimer : Option Timer
  pending : Option Maint
  dueAfterRun : Option Nat
  deriving DecidableEq, Repr

/-- A mirror entry: its issue number and, unless it is FREE, its record (R47, R48). -/
structure MirrorEntry where
  issue : Byte
  use : Option MirrorUse
  deriving DecidableEq, Repr

/-! ## Target table and locks (chapters 4 and 5) -/

/-- Field bus bit rates; as a speed cap, STANDARD, FAST and FAST PLUS (Table 4-1, R111). -/
inductive Rate where
  | khz100 | khz400 | khz1000
  deriving DecidableEq, Repr

/-- Health states (R83). -/
inductive Health where
  | online | suspect | quarantined
  deriving DecidableEq, Repr

/-- A lock that is held: the holder and the lease timer, whose length is the lease length and whose expiry is the expiry
time (Table 5-1). -/
structure Hold where
  port : Port
  lease : Timer
  deriving DecidableEq, Repr

/-- A wait entry: a port and its requested lease as received (Table 5-1). -/
structure Waiter where
  port : Port
  lease : Nat
  deriving DecidableEq, Repr

/-- The record of a declared target (Table 4-1), with the lock record (Table 5-1), the probe due timer (Table 2-1) and the
maintenance record of its pending probe (R38). -/
structure Target where
  addr : Byte
  speed : Rate
  stretchLimit : Nat
  threshold : Nat
  probeInterval : Nat
  readSet : PortSet
  writeSet : PortSet
  health : Health
  failures : Nat
  probeDue : Option Nat
  probeTimer : Option Timer
  probe : Option Maint
  lock : Option Hold
  waiters : List Waiter
  deriving DecidableEq, Repr

/-! ## Field bus engine and bus monitor (chapter 6) -/

/-- The three sorts of work (R118). A poll carries its entry's issue number and key, a probe its target's address, and
both carry their maintenance record (R38, R59). -/
inductive Work where
  | request (n : SlotId)
  | poll (e : EntryId) (issue : Byte) (key : Key) (rec : Maint)
  | probe (t : TargetId) (addr : Byte) (rec : Maint)
  deriving DecidableEq, Repr

/-- A transfer: the work, the rate and stretch limit taken when the engine left IDLE (R111, R120), the attempt count that
the engine keeps for a poll or a probe (R120), the stretch timer (R112), and whether abort-pending stood set as the START of
the address attempt under way was issued, so that it is honoured at the first acknowledged boundary of that attempt (R126). -/
structure Transfer where
  work : Work
  rate : Rate
  stretchLimit : Nat
  attempts : Nat
  stretch : Option Timer
  flagAtStart : Bool
  deriving DecidableEq, Repr

/-- Engine states (R118). RECOVERY is in an attempt or in the wait between two attempts. -/
inductive Engine where
  | idle
  | transfer (t : Transfer)
  | recovery (attempting : Bool)
  deriving DecidableEq, Repr

/-- Bus monitor states (Table 6-2). -/
inductive MonitorState where
  | unknown | free | owned | foreign | hung | recovering | faulted
  deriving DecidableEq, Repr

/-- The bus monitor (R113), with the levels of the lines as it last read them (R110). -/
structure Monitor where
  state : MonitorState
  failed : Nat
  busFault : Bool
  hang : Option Timer
  idle : Option Timer
  retry : Option Timer
  lines : Lines
  deriving DecidableEq, Repr

/-! ## Notices (chapter 7) -/

/-- Why a lock ended (Table 7-1). -/
inductive LockEnd where
  | expired | forced
  deriving DecidableEq, Repr

/-- What BUS STATE carries (Table 7-1). -/
inductive BusNews where
  | faulted | restored
  deriving DecidableEq, Repr

/-- A notice record (Table 7-1). -/
inductive Notice where
  | completed (ticket : Half) (outcome : TransferOutcome) (bytesDone : Nat)
  | mirrorChanged (e : EntryId) (seqNo : Half)
  | mirrorState (e : EntryId) (state : MirrorState)
  | lockGranted (target : Byte) (lease : Nat)
  | lockEnded (target : Byte) (cause : LockEnd)
  | targetState (target : Byte) (health : Health) (failures : Nat)
  | busState (news : BusNews)
  | overflow (lost : Nat)
  deriving DecidableEq, Repr

/-- A port's notice queue, oldest first, and its notice mask (R134, R136). -/
structure NoticePort where
  queue : List Notice
  mask : Byte
  deriving DecidableEq, Repr

/-! ## Host ports (chapter 8) -/

/-- Frame states (R147). -/
inductive FrameState where
  | idle | header | response
  deriving DecidableEq, Repr

/-- A host port: session state and generation (R158), frame state (R147), whether its chip select is low (R164), the
status byte being shifted out (R147), the response of the open frame (R153), the last-response buffer (R155), the two
frame flags (R148) and the pending RESET PART (R176). A response is held as its bytes from length byte to check byte. -/
structure HostPort where
  attached : Bool
  generation : Byte
  frame : FrameState
  selected : Bool
  statusOut : Option Byte
  response : Option (List Byte)
  buffer : Option (List Byte)
  frameAbandoned : Bool
  checkError : Bool
  resetPending : Bool
  deriving DecidableEq, Repr

/-! ## Supervisor functions (chapter 9) -/

/-- The part-wide parameters (Table 9-1). -/
structure Params where
  busRate : Rate
  addressRetries : Nat
  lossLimit : Nat
  agingLimit : Nat
  maintenanceClass : WorkClass
  staleMultiple : Nat
  hangLimit : Nat
  faultRetry : Nat
  maxLease : Nat
  admitted : PortSet
  deriving DecidableEq, Repr

/-- The reset-cause record (R177). -/
inductive ResetCause where
  | powerOn
  | resetPin
  | resetCommand (p : Port)
  deriving DecidableEq, Repr

/-- What holds the device in reset (R174, R175): the power-on reset, a low nRST; and whether it has run since power was
applied. -/
structure ResetHold where
  supply : Bool
  nrst : Bool
  coldStart : Bool
  deriving DecidableEq, Repr

/-! ## The whole -/

/-- The state of the device, and the queue of commands that wait to be taken. `now` counts the millisecond boundaries
passed since the last reset; the time base is its low 32 bits (R26, R28). -/
structure State where
  pending : List Instr
  hold : ResetHold
  supervisor : Port
  cause : ResetCause
  params : Params
  now : Nat
  ports : PerPort HostPort
  notices : PerPort NoticePort
  slots : Vector Slot 48
  lists : PerPort (List SlotId)
  pointers : Pointers
  entries : Vector MirrorEntry 24
  targets : Vector (Option Target) 32
  engine : Engine
  monitor : Monitor
  deriving DecidableEq, Repr

/-- Why the machine stops with a fault: never. The manual names no condition in which the part stops: what a host may not
do is answered with a refusal code, and what goes wrong on the field bus has an outcome. -/
inductive Fault where
  deriving DecidableEq, Repr

/-- Why a term of `Instr` has no meaning. -/
inductive Refusal where
  /-- Raised by `exec`'s arm of a command that has no meaning yet; safe, since the machine stops. -/
  | notModelled (mnemonic : String)
  /-- Raised by the meanings of SUBMIT and of an unknown command where the term stands for no header (R150, R181): the
  counted bytes are not as many as the length fields state, or the code names a command. Safe, since the machine stops. -/
  | illFormed
  deriving DecidableEq, Repr

/-- The defaults of Table 9-1. -/
def Params.default : Params where
  busRate := .khz100
  addressRetries := 1
  lossLimit := 8
  agingLimit := 50
  maintenanceClass := .normal
  staleMultiple := 4
  hangLimit := 25
  faultRetry := 1000
  maxLease := 1000
  admitted := 0xF#4

/-- A host port after a reset (R164); `selected` says whether its chip select is low then. -/
def HostPort.atReset (selected : Bool) : HostPort where
  attached := false
  generation := 0#8
  frame := .idle
  selected := selected
  statusOut := none
  response := none
  buffer := none
  frameAbandoned := false
  checkError := false
  resetPending := false

/-- A notice queue and mask after a reset and at the start of a session (R136, R146). -/
def NoticePort.fresh : NoticePort := ⟨[], Config.defaultMask⟩

/-- The monitor in a reset: UNKNOWN, with every timer stopped (R133). -/
def Monitor.atReset (lines : Lines) : Monitor := ⟨.unknown, 0, false, none, none, none, lines⟩

/-- The machine right after a power-on reset (Table 9-3). The straps 00, the lines both high and every chip select high are
inputs that this state fixes (DESIGN CHOICE, notes/assumptions/1.md); the idle confirmation timer runs, as R133 and R114
give for lines that read high as the reset ends. -/
def State.reset : State where
  pending := []
  hold := ⟨false, false, false⟩
  supervisor := .h0
  cause := .powerOn
  params := Params.default
  now := 0
  ports := PerPort.same (HostPort.atReset false)
  notices := PerPort.same NoticePort.fresh
  slots := Vector.replicate 48 ⟨0#8, none⟩
  lists := PerPort.same []
  pointers := ⟨.maintenance, .maintenance, .maintenance⟩
  entries := Vector.replicate 24 ⟨0#8, none⟩
  targets := Vector.replicate 32 none
  engine := .idle
  monitor := { Monitor.atReset ⟨true, true⟩ with idle := some ⟨0, Config.idleConfirmation⟩ }

end Sys2Proof.Machine
end

