-- ==== Sys2Proof/Machine/Ops.lean ====
section
/-! DEFINITION. Access to the records of the state, timers, and the operations that every block shares: looking a target up,
allocating and freeing a slot, offering a notice, forming a response. -/

namespace Sys2Proof.Machine

open Sys2Proof

/-- What a meaning answers. -/
abbrev Answer := Host.Outcome State Fault Refusal

/-! ## Access -/

/-- The host port record of a port. -/
def State.port (s : State) (p : Port) : HostPort := s.ports.get p

/-- The state with a host port record changed. -/
def State.updPort (s : State) (p : Port) (f : HostPort → HostPort) : State :=
  { s with ports := s.ports.set p (f (s.ports.get p)) }

/-- The notice queue and mask of a port. -/
def State.noticePort (s : State) (p : Port) : NoticePort := s.notices.get p

/-- The state with a port's notice queue and mask replaced. -/
def State.setNoticePort (s : State) (p : Port) (n : NoticePort) : State := { s with notices := s.notices.set p n }

/-- A slot of the pool. -/
def State.slot (s : State) (n : SlotId) : Slot := s.slots.get n

/-- The state with a slot replaced. -/
def State.setSlot (s : State) (n : SlotId) (v : Slot) : State := { s with slots := s.slots.set n.val v n.isLt }

/-- The request a slot holds; none when it is FREE. -/
def State.request (s : State) (n : SlotId) : Option Request := (s.slot n).held

/-- The state with the request of a slot that is not FREE changed. -/
def State.updRequest (s : State) (n : SlotId) (f : Request → Request) : State :=
  s.setSlot n { s.slot n with held := (s.request n).map f }

/-- The request list of a port, oldest first (R6). -/
def State.list (s : State) (p : Port) : List SlotId := s.lists.get p

/-- The state with a port's request list replaced. -/
def State.setList (s : State) (p : Port) (l : List SlotId) : State := { s with lists := s.lists.set p l }

/-- A mirror entry. -/
def State.entry (s : State) (e : EntryId) : MirrorEntry := s.entries.get e

/-- The record of a mirror entry in use; none when it is FREE. -/
def State.entryUse (s : State) (e : EntryId) : Option MirrorUse := (s.entry e).use

/-- The state with a mirror entry replaced. -/
def State.setEntry (s : State) (e : EntryId) (v : MirrorEntry) : State :=
  { s with entries := s.entries.set e.val v e.isLt }

/-- The state with the record of an entry in use changed. -/
def State.updEntry (s : State) (e : EntryId) (f : MirrorUse → MirrorUse) : State :=
  s.setEntry e { s.entry e with use := (s.entryUse e).map f }

/-- A target entry; none when it is FREE. -/
def State.target (s : State) (t : TargetId) : Option Target := s.targets.get t

/-- The state with a target entry replaced. -/
def State.setTarget (s : State) (t : TargetId) (v : Option Target) : State :=
  { s with targets := s.targets.set t.val v t.isLt }

/-- The state with the record of a declared target changed. -/
def State.updTarget (s : State) (t : TargetId) (f : Target → Target) : State :=
  s.setTarget t ((s.target t).map f)

/-- The state with the monitor replaced. -/
def State.setMonitor (s : State) (m : Monitor) : State := { s with monitor := m }

/-- The state with the engine replaced. -/
def State.setEngine (s : State) (e : Engine) : State := { s with engine := e }

/-- The declared target at an address, by its index (R75). -/
def State.findTarget (s : State) (addr : Byte) : Option TargetId :=
  (List.finRange 32).find? fun t => (s.target t).any fun x => x.addr == addr

/-- The record of the declared target at an address (R75). -/
def State.targetAt (s : State) (addr : Byte) : Option Target := (s.findTarget addr).bind s.target

/-- The index and the record of the declared target at an address (R75). -/
def State.lookup (s : State) (addr : Byte) : Option (TargetId × Target) :=
  (s.findTarget addr).bind fun t => (s.target t).map fun x => (t, x)

/-- The port that holds the lock on the target at an address. -/
def State.holderAt (s : State) (addr : Byte) : Option Port :=
  (s.targetAt addr).bind fun x => x.lock.map Hold.port

/-- Whether a port stands in a target's wait list (R93). -/
def Target.awaits (x : Target) (p : Port) : Bool := x.waiters.any fun w => w.port == p

/-- The in-use mirror entry with a key (R49). -/
def State.findEntry (s : State) (k : Key) : Option EntryId :=
  (List.finRange 24).find? fun e => (s.entryUse e).any fun u => u.key == k

/-- The FREE entry of lowest number: of the slots (R3), the mirror entries (R53), the targets (R76). -/
def State.freeSlot (s : State) : Option SlotId := (List.finRange 48).find? fun n => (s.request n).isNone
def State.freeEntry (s : State) : Option EntryId := (List.finRange 24).find? fun e => (s.entryUse e).isNone
def State.freeTarget (s : State) : Option TargetId := (List.finRange 32).find? fun t => (s.target t).isNone

/-! ## Time -/

/-- The time base (R26). -/
def State.uptime (s : State) : BitVec 32 := BitVec.ofNat 32 s.now

/-- The boundary count at which a timer expires (R27). -/
def Timer.expiry (t : Timer) : Nat := t.setAt + t.length

/-- Whether a timer's expiry has been reached (R27). -/
def Timer.due (t : Timer) (now : Nat) : Bool := decide (t.expiry ≤ now)

/-- Whether a running timer's expiry has been reached; a stopped timer has none (R27). -/
def timerDue (t : Option Timer) (now : Nat) : Bool := t.any fun x => x.due now

/-- A timer set now (R27). -/
def State.timer (s : State) (length : Nat) : Timer := ⟨s.now, length⟩

/-- Whether the device is held in reset and takes no event (R174, R175). -/
def State.inReset (s : State) : Bool := s.hold.supply || s.hold.nrst

/-! ## Tallies (R8, R25) -/

/-- Whether a slot is attributed to a port: it is not FREE and the port submitted it (R1). -/
def State.ownedBy (s : State) (p : Port) (n : SlotId) : Bool := (s.request n).any fun r => r.owner == p

/-- A port's tally: the slots attributed to it, orphans included (R8). -/
def State.tally (s : State) (p : Port) : Nat := (List.finRange 48).countP (s.ownedBy p)

/-- The number of FREE slots (R1). -/
def State.freeSlots (s : State) : Nat := (List.finRange 48).countP fun n => (s.request n).isNone

/-- The shared slots in use: the parts of the tallies above the reserves (R8). -/
def State.sharedInUse (s : State) : Nat := (Port.all.map fun p => s.tally p - Config.reserve).sum

/-- The quota check of SUBMIT (R8). -/
def State.quotaPasses (s : State) (p : Port) : Bool :=
  decide (s.tally p < Config.reserve) || decide (s.sharedInUse < Config.sharedSlots)

/-- Whether a request is finished: its slot is DONE. -/
def Request.isDone (r : Request) : Bool :=
  match r.state with
  | .done _ => true
  | .queued | .active => false

/-- Whether a slot is in a port's result set: DONE and the port's (R7). -/
def State.inResultSet (s : State) (p : Port) (n : SlotId) : Bool :=
  (s.request n).any fun r => r.owner == p && r.isDone

/-- A port's queued count (R25). -/
def State.queuedCount (s : State) (p : Port) : Nat :=
  (s.list p).countP fun n => (s.request n).any fun r => r.state == .queued

/-! ## Notices (sections 7.3 and 7.4) -/

/-- A port's session is open and its queue is non-empty: the condition of the attention output (R143). -/
def State.attention (s : State) (p : Port) : Bool := (s.port p).attached && !(s.noticePort p).queue.isEmpty

/-- The kind code of a notice (Table 10-13). -/
def Notice.kindCode : Notice → Byte
  | .completed _ _ _ => 0x01#8
  | .mirrorChanged _ _ => 0x02#8
  | .mirrorState _ _ => 0x03#8
  | .lockGranted _ _ => 0x04#8
  | .lockEnded _ _ => 0x05#8
  | .targetState _ _ _ => 0x06#8
  | .busState _ => 0x07#8
  | .overflow _ => 0x08#8

/-- Whether a mask records a notice's kind: mask bit n is for kind code n + 1, and OVERFLOW has none (R136, Table 10-13). -/
def maskRecords (mask : Byte) (n : Notice) : Bool :=
  decide (n.kindCode.toNat ≤ 7) && mask.getLsbD (n.kindCode.toNat - 1)

/-- Whether a queued notice and a new one coalesce: one kind that does, and one subject (R139). -/
def Notice.coalesces : Notice → Notice → Bool
  | .mirrorChanged e _, .mirrorChanged e' _ => e == e'
  | .mirrorState e _, .mirrorState e' _ => e == e'
  | .targetState a _ _, .targetState a' _ _ => a == a'
  | .busState _, .busState _ => true
  | _, _ => false

/-- Whether a notice is an OVERFLOW entry. -/
def Notice.isOverflow : Notice → Bool
  | .overflow _ => true
  | _ => false

/-- One more notice lost, saturating (R140). -/
def Notice.countLost : Notice → Notice
  | .overflow c => .overflow (min (c + 1) Config.countMax)
  | n => n

/-- Steps 2 to 5 of an offer: coalesced, counted as lost, overflow begun, or appended (R138). -/
def enqueue (q : List Notice) (n : Notice) : List Notice :=
  if q.any (fun m => m.coalesces n) then q.map fun m => if m.coalesces n then n else m
  else if q.any Notice.isOverflow then q.map Notice.countLost
  else if Config.noticeRoom ≤ q.length then q ++ [.overflow 1]
  else q ++ [n]

/-- A notice is offered to a port (R138). -/
def State.offer (s : State) (n : Notice) (p : Port) : State :=
  if (s.port p).attached && maskRecords (s.noticePort p).mask n then
    s.setNoticePort p { s.noticePort p with queue := enqueue (s.noticePort p).queue n }
  else s

/-- A notice is offered to several ports, each queue taking it on its own terms (R134). -/
def State.offerTo (s : State) (n : Notice) (ps : List Port) : State := ps.foldl (fun s p => s.offer n p) s

/-- The attached ports. -/
def State.attachedPorts (s : State) : List Port := Port.all.filter fun p => (s.port p).attached

/-! ## Tickets and slots (sections 1.5 and 1.10) -/

/-- A ticket from its three fields (Table 10-5). -/
def ticketOf (p : Port) (n : SlotId) (issue : Byte) : Half :=
  BitVec.ofNat 2 p.index.val ++ BitVec.ofNat 6 n.val ++ issue

/-- The slot that a ticket presented on a port names, with its request, when the ticket is valid (R9). DESIGN CHOICE: once the
generation has wrapped while the transfer of an orphan lasts (R158), the five tests of R9 pass for the orphan's ticket, though
R9 and R23 say that no later session reaches it, and once the issue number has wrapped they pass for a ticket of a slot freed
and allocated again, though R9 says that the number differs; the same holds after a reset, which starts both numbers again,
though R24 has tickets issued before it answered UNKNOWN TICKET. The five tests are followed (notes/assumptions/32.md). -/
def State.ticketSlot (s : State) (p : Port) (ticket : Half) : Option (SlotId × Request) :=
  let number := (ticket.extractLsb' 8 6).toNat
  if h : number < 48 then
    let n : SlotId := ⟨number, h⟩
    match s.request n with
    | none => none
    | some r =>
      if Port.ofBits (ticket.extractLsb' 14 2) == p && r.owner == p && r.generation == (s.port p).generation
          && (s.slot n).issue == ticket.extractLsb' 0 8 then some (n, r)
      else none
  else none

/-- A slot leaves the request list of a port; the others keep their places (R6). -/
def State.unlist (s : State) (p : Port) (n : SlotId) : State := s.setList p ((s.list p).filter (· != n))

/-- A slot is freed: it leaves its owner's collections and keeps only its issue number (R21). -/
def State.freeSlotOf (s : State) (n : SlotId) : State :=
  match s.request n with
  | none => s
  | some r => (s.unlist r.owner n).setSlot n ⟨(s.slot n).issue, none⟩

/-! ## Responses (section 8.3) -/

/-- The value of a response code (Table 10-6). -/
def Code.byte : Code → Byte
  | .done => 0x01#8 | .accepted => 0x02#8 | .granted => 0x03#8 | .waiting => 0x04#8 | .cancelled => 0x05#8
  | .aborting => 0x06#8 | .tooLate => 0x07#8 | .notDone => 0x08#8 | .empty => 0x09#8 | .notFound => 0x0A#8
  | .checkError => 0x80#8 | .unknownCommand => 0x81#8 | .notSupervisor => 0x82#8 | .notAttached => 0x83#8
  | .badArgument => 0x84#8 | .unknownTarget => 0x85#8 | .notPermitted => 0x86#8 | .quarantined => 0x87#8
  | .quotaExhausted => 0x88#8 | .busFault => 0x89#8 | .unknownTicket => 0x8A#8 | .tableFull => 0x8B#8
  | .notSponsor => 0x8C#8 | .alreadyHeld => 0x8E#8 | .alreadyWaiting => 0x8F#8 | .notHolder => 0x90#8
  | .inUse => 0x91#8 | .portDisabled => 0x92#8 | .busy => 0x93#8
  | .held p => 0x98#8 + BitVec.ofNat 8 p.index.val

/-- A response code with its data bytes. -/
structure Reply where
  code : Code
  data : List Byte
  deriving DecidableEq, Repr

/-- A reply without data. -/
def Reply.plain (c : Code) : Reply := ⟨c, []⟩

/-- The bytes of a response from its length byte to its check byte (R153). -/
def Reply.bytes (r : Reply) : List Byte :=
  let body := BitVec.ofNat 8 (1 + r.data.length) :: r.code.byte :: r.data
  body ++ [crc8 body]

/-- What the device shifts out after the header of an open frame: the turnaround byte and the response (R153). -/
def State.shiftedOut (s : State) (p : Port) : Option (List Byte) := (s.port p).response.map fun r => 0x00#8 :: r

/-- The byte that a port shows on SDOn; none while it shifts nothing, in IDLE. In HEADER it is the status byte, and FFh for
every byte after it (R179); in RESPONSE the byte of number `k`, with the turnaround byte as number 0, and FFh for every byte
that the host clocks beyond the check byte (R153). -/
def State.sdo (s : State) (p : Port) (k : Nat) : Option Byte :=
  match (s.port p).frame with
  | .idle => none
  | .header => some ((s.port p).statusOut.getD 0xFF#8)
  | .response => some ((((s.shiftedOut p).getD [])[k]?).getD 0xFF#8)

/-- A response formed before goes out in the open frame and the frame goes to RESPONSE; the buffer stays (R157). -/
def State.shiftOut (s : State) (p : Port) (bytes : List Byte) : State :=
  s.updPort p fun h => { h with frame := .response, response := some bytes }

/-- A response is formed, goes out in the open frame, and is stored in the last-response buffer (R152, R156). -/
def State.respond (s : State) (p : Port) (r : Reply) : State :=
  s.updPort p fun h => { h with frame := .response, response := some r.bytes, buffer := some r.bytes }

/-- Whether a header can complete on a port: the device runs and a frame is open in HEADER. In IDLE the port ignores its
clock, in RESPONSE every byte is ignored, and in reset no event is taken (R147, R174, R175). -/
def State.takesHeader (s : State) (p : Port) : Bool := !s.inReset && (s.port p).frame == .header

/-! ## The common check stage (section 8.4) -/

/-- What a command needs of the port it arrives on (Table 8-4). -/
inductive Standing where
  | any
  | session
  | supervisor
  deriving DecidableEq, Repr

/-- Checks 3 and 4 of the refusal precedence (R154). -/
def State.standingRefusal (s : State) (need : Standing) (p : Port) : Option Code :=
  if need == .supervisor && s.supervisor != p then some .notSupervisor
  else if need != .any && !(s.port p).attached then some .notAttached
  else none

/-- A command whose header completes on a port: the common checks in their order, the argument ranges among them (`args` is
none when an argument lies outside its range), then the command itself; then its response is formed and stored (R152,
R154, R156). -/
def State.command {α : Type} (s : State) (p : Port) (need : Standing) (args : Option α)
    (body : α → State → State × Reply) : State :=
  if s.takesHeader p then
    match s.standingRefusal need p with
    | some c => s.respond p (Reply.plain c)
    | none =>
      match args with
      | none => s.respond p (Reply.plain .badArgument)
      | some a => (body a s).1.respond p (body a s).2
  else s

end Sys2Proof.Machine
end

