-- ==== Sys2Proof/Machine/Operands.lean ====
section
/-! DEFINITION. The argument fields of the commands: each command's argument bytes read by the layouts of chapter 10 and
checked against the ranges of the owning chapter (check 5 of R154). `none` is BAD ARGUMENT. -/

namespace Sys2Proof.Machine

open Sys2Proof

/-- A target address, 08h to 77h (R75, R178). -/
def addressArg (b : Byte) : Option Byte :=
  if Config.addressMin ≤ b.toNat ∧ b.toNat ≤ Config.addressMax then some b else none

/-- A mirror entry number, 0 to 23 (R54, R70). -/
def entryArg (b : Byte) : Option EntryId := if h : b.toNat < 24 then some ⟨b.toNat, h⟩ else none

/-- Bit 0 of a flags byte; bits 7 to 1 are reserved and ignored (R178, Table 10-3). -/
def flagArg (b : Byte) : Bool := b.getLsbD 0

/-- A mirror key; index positions beyond the index length are ignored (R51, R178). -/
def keyArg (k : KeyArgs) : Option Key :=
  (addressArg k.addr).bind fun a =>
    if k.indexLen.toNat ≤ 3 ∧ 1 ≤ k.len.toNat ∧ k.len.toNat ≤ Config.mirrorValueMax then
      some ⟨a, [k.index1, k.index2, k.index3].take k.indexLen.toNat, k.len.toNat⟩
    else none

/-- The arguments of MIRROR DEFINE: the key and the sponsor record (R50, R51). -/
def defineArg (k : KeyArgs) (period : Half) (flags : Byte) (mask : Half) : Option (Key × Sponsor) :=
  (keyArg k).bind fun key =>
    if Config.periodMin ≤ period.toNat ∧ period.toNat ≤ Config.periodMax then
      some (key, ⟨period.toNat, flagArg flags, mask⟩)
    else none

/-- The kind of a descriptor: bits 1 to 0 of its first byte (Table 10-4). -/
def kindOf (b : Byte) : Kind :=
  if b.extractLsb' 0 2 = 0#2 then .write
  else if b.extractLsb' 0 2 = 1#2 then .read
  else if b.extractLsb' 0 2 = 2#2 then .indexedRead
  else .probe

/-- The class of a descriptor: bits 3 to 2 of its first byte; 11 is refused (Table 10-4). -/
def classOf (b : Byte) : Option WorkClass :=
  if b.extractLsb' 2 2 = 0#2 then some .urgent
  else if b.extractLsb' 2 2 = 1#2 then some .normal
  else if b.extractLsb' 2 2 = 2#2 then some .bulk
  else none

/-- The valid combinations of kind, index length, write length, read length and AUTO RELEASE (Table 1-7). -/
def validCombination (kind : Kind) (index write read : Nat) (autoRelease : Bool) : Bool :=
  match kind with
  | .write => decide (index ≤ 3 ∧ 1 ≤ index + write ∧ write ≤ Config.dataMax ∧ read = 0)
  | .read => decide (index = 0 ∧ write = 0 ∧ 1 ≤ read ∧ read ≤ Config.dataMax) && !autoRelease
  | .indexedRead =>
    decide (1 ≤ index ∧ index ≤ 3 ∧ write = 0 ∧ 1 ≤ read ∧ read ≤ Config.dataMax) && !autoRelease
  | .probe => decide (index = 0 ∧ write = 0 ∧ read = 0)

/-- The descriptor of a SUBMIT (R5, R181); reserved bits 7 and 6 of its fourth byte are ignored. -/
def descriptorArg (a : SubmitArgs) : Option Descriptor :=
  (addressArg a.addr).bind fun target =>
    (classOf a.control).bind fun cls =>
      let read := (a.readLen.extractLsb' 0 6).toNat
      if validCombination (kindOf a.control) a.indexLength a.writeLength read (a.control.getLsbD 5) then
        some {
          kind := kindOf a.control, target := target
          index := a.tail.take a.indexLength, data := (a.tail.drop a.indexLength).take a.writeLength
          readLen := read, cls := cls
          notify := a.control.getLsbD 4, autoRelease := a.control.getLsbD 5
          underLock := a.control.getLsbD 6, fence := a.control.getLsbD 7 }
      else none

/-- A speed cap code (notes on Table 10-3). -/
def speedArg (b : Byte) : Option Rate :=
  if b = 0x00#8 then some .khz100 else if b = 0x01#8 then some .khz400 else if b = 0x02#8 then some .khz1000 else none

/-- The declared fields of a target (R76). -/
structure Declaration where
  addr : Byte
  speed : Rate
  stretchLimit : Nat
  threshold : Nat
  probeInterval : Nat
  readSet : PortSet
  writeSet : PortSet
  deriving DecidableEq, Repr

/-- A field of DECLARE TARGET whose code 0 stands for a default (R178). -/
def orDefault (v d : Nat) : Nat := if v = 0 then d else v

/-- The arguments of DECLARE TARGET (R76, R178); bits 7 to 4 of a port set are ignored. -/
def declareArg (d : DeclareArgs) : Option Declaration :=
  (addressArg d.addr).bind fun a =>
    (speedArg d.speed).bind fun speed =>
      let stretch := orDefault d.stretch.toNat Config.defaultStretch
      let threshold := orDefault d.threshold.toNat Config.defaultThreshold
      let interval := orDefault d.probeInterval.toNat Config.defaultProbeInterval
      if 1 ≤ stretch ∧ stretch ≤ 100 ∧ 1 ≤ threshold ∧ threshold ≤ 15 ∧ 10 ≤ interval ∧ interval ≤ 10000 then
        some ⟨a, speed, stretch, threshold, interval, d.readSet.extractLsb' 0 4, d.writeSet.extractLsb' 0 4⟩
      else none

/-- The address and requested lease of LOCK with its wait flag (R94). -/
def lockArg (addr : Byte) (lease : Half) (flags : Byte) : Option (Byte × Nat × Bool) :=
  (addressArg addr).bind fun a => if lease.toNat = 0 then none else some (a, lease.toNat, flagArg flags)

/-- A notice mask; bit 7 names no kind (R137, R178). -/
def maskArg (m : Byte) : Option Byte := if m.getLsbD 7 then none else some m

/-- The port that EVICT PORT names: one of the four and not the supervisor port (R172). -/
def evictArg (supervisor : Port) (b : Byte) : Option Port :=
  if b.toNat < 4 ∧ Port.ofBits (b.extractLsb' 0 2) ≠ supervisor then some (Port.ofBits (b.extractLsb' 0 2)) else none

/-! ## Parameters (section 10.9) -/

/-- The ten parameters (Table 9-1). -/
inductive Param where
  | busRate | addressRetries | lossLimit | agingLimit | maintenanceClass | staleMultiple | hangLimit | faultRetry
  | maxLease | admitted
  deriving DecidableEq, Repr

/-- A parameter identifier (Table 10-15). -/
def paramArg (b : Byte) : Option Param :=
  match b.toNat with
  | 0x01 => some .busRate
  | 0x02 => some .addressRetries
  | 0x03 => some .lossLimit
  | 0x04 => some .agingLimit
  | 0x05 => some .maintenanceClass
  | 0x06 => some .staleMultiple
  | 0x07 => some .hangLimit
  | 0x08 => some .faultRetry
  | 0x09 => some .maxLease
  | 0x0A => some .admitted
  | _ => none

/-- A bit rate in kHz (R111). -/
def Rate.khz : Rate → Nat
  | .khz100 => 100 | .khz400 => 400 | .khz1000 => 1000

/-- The bit rate of a number of kHz (R111). -/
def Rate.ofKhz (n : Nat) : Option Rate :=
  if n = 100 then some .khz100 else if n = 400 then some .khz400 else if n = 1000 then some .khz1000 else none

/-- The code of a class, as the maintenance class parameter carries it (Table 10-15). -/
def WorkClass.code : WorkClass → Nat
  | .urgent => 0 | .normal => 1 | .bulk => 2

/-- The class of a code (Table 10-15). -/
def WorkClass.ofCode (n : Nat) : Option WorkClass :=
  if n = 0 then some .urgent else if n = 1 then some .normal else if n = 2 then some .bulk else none

/-- The value of a parameter in its two-byte encoding (Table 10-15). -/
def Params.value (ps : Params) : Param → Half
  | .busRate => BitVec.ofNat 16 ps.busRate.khz
  | .addressRetries => BitVec.ofNat 16 ps.addressRetries
  | .lossLimit => BitVec.ofNat 16 ps.lossLimit
  | .agingLimit => BitVec.ofNat 16 ps.agingLimit
  | .maintenanceClass => BitVec.ofNat 16 ps.maintenanceClass.code
  | .staleMultiple => BitVec.ofNat 16 ps.staleMultiple
  | .hangLimit => BitVec.ofNat 16 ps.hangLimit
  | .faultRetry => BitVec.ofNat 16 ps.faultRetry
  | .maxLease => BitVec.ofNat 16 ps.maxLease
  | .admitted => ps.admitted.setWidth 16

/-- The parameter set with one parameter written, when the value lies in the parameter's range; an admitted-ports set must
contain the supervisor port, and its bits 15 to 4 are ignored (R169, R170, Table 9-1). -/
def Params.write (ps : Params) (supervisor : Port) (p : Param) (v : Half) : Option Params :=
  let n := v.toNat
  match p with
  | .busRate => (Rate.ofKhz n).map fun r => { ps with busRate := r }
  | .addressRetries => if n ≤ 3 then some { ps with addressRetries := n } else none
  | .lossLimit => if 1 ≤ n ∧ n ≤ 15 then some { ps with lossLimit := n } else none
  | .agingLimit => if n ≤ 1000 then some { ps with agingLimit := n } else none
  | .maintenanceClass => (WorkClass.ofCode n).map fun c => { ps with maintenanceClass := c }
  | .staleMultiple => if 2 ≤ n ∧ n ≤ 15 then some { ps with staleMultiple := n } else none
  | .hangLimit => if 5 ≤ n ∧ n ≤ 100 then some { ps with hangLimit := n } else none
  | .faultRetry => if 100 ≤ n ∧ n ≤ 10000 then some { ps with faultRetry := n } else none
  | .maxLease => if 10 ≤ n ∧ n ≤ 10000 then some { ps with maxLease := n } else none
  | .admitted =>
    let set : PortSet := v.extractLsb' 0 4
    if set.has supervisor then some { ps with admitted := set } else none

/-- The arguments of SET PARAMETER: the parameter and the parameter set with it written (R169). -/
def setParamArg (ps : Params) (supervisor : Port) (ident : Byte) (v : Half) : Option (Param × Params) :=
  (paramArg ident).bind fun p => (ps.write supervisor p v).map fun ps' => (p, ps')

end Sys2Proof.Machine
end

