-- ==== Sys2Proof/Machine/Flags.lean ====
section
/-! DEFINITION. Flags and codes: the port status byte (R148, R179), the codes and records of section 10.8, and the class of
a completion for health (R84). -/

namespace Sys2Proof.Machine

open Sys2Proof

/-- A flag as bit n of a byte. -/
def flagBit (b : Bool) (n : Nat) : Byte := if b then (1#8) <<< n else 0#8

/-- The port status byte as it stands (R148, Table 10-1). -/
def State.statusByte (s : State) (p : Port) : Byte :=
  flagBit (s.port p).attached 7 ||| flagBit (s.attention p) 6 ||| flagBit (s.supervisor == p) 5 |||
    flagBit s.monitor.busFault 4 ||| flagBit (s.port p).frameAbandoned 3 ||| flagBit (s.port p).checkError 2 ||| 0x02#8

/-- Outcome codes (Table 10-14). -/
def TransferOutcome.byte : TransferOutcome → Byte
  | .ok => 0x00#8 | .addressNack => 0x01#8 | .dataNack => 0x02#8 | .stretchTimeout => 0x03#8 | .busContended => 0x04#8
  | .busFault => 0x05#8 | .aborted => 0x07#8 | .lockLost => 0x08#8 | .notLocked => 0x09#8 | .targetQuarantined => 0x0A#8

/-- Mirror state codes (Table 10-11). -/
def MirrorState.byte : MirrorState → Byte
  | .priming => 0x00#8 | .valid => 0x01#8 | .stale => 0x02#8 | .failed => 0x03#8

/-- Health codes (Table 10-12). -/
def Health.byte : Health → Byte
  | .online => 0x00#8 | .suspect => 0x01#8 | .quarantined => 0x02#8

/-- Monitor state codes (Table 10-10). -/
def MonitorState.byte : MonitorState → Byte
  | .unknown => 0x00#8 | .free => 0x01#8 | .owned => 0x02#8 | .foreign => 0x03#8 | .hung => 0x04#8
  | .recovering => 0x05#8 | .faulted => 0x06#8

/-- Slot state codes of FETCH's NOT DONE (Table 10-7); a DONE slot is not answered NOT DONE. -/
def SlotState.byte : SlotState → Byte
  | .queued => 0x01#8 | .active => 0x02#8 | .done _ => 0x00#8

/-- A port number (R178). -/
def portNumber (p : Port) : Byte := BitVec.ofNat 8 p.index.val

/-- A port number, or FFh for no port (R178, R182). -/
def portByte : Option Port → Byte
  | some p => portNumber p
  | none => 0xFF#8

/-- Cause codes of LOCK ENDED (Table 10-13). -/
def LockEnd.byte : LockEnd → Byte
  | .expired => 0x01#8 | .forced => 0x02#8

/-- State codes of BUS STATE (Table 10-13). -/
def BusNews.byte : BusNews → Byte
  | .faulted => 0x01#8 | .restored => 0x02#8

/-- A count in one byte. -/
def countByte (n : Nat) : Byte := BitVec.ofNat 8 n

/-- The five bytes of a notice record (Table 10-13). -/
def Notice.record (n : Notice) : List Byte :=
  n.kindCode :: match n with
    | .completed t o b => Half.bytes t ++ [o.byte, countByte b]
    | .mirrorChanged e q => [countByte e.val] ++ Half.bytes q ++ [0x00#8]
    | .mirrorState e m => [countByte e.val, m.byte, 0x00#8, 0x00#8]
    | .lockGranted a l => [a] ++ Half.bytes (BitVec.ofNat 16 l) ++ [0x00#8]
    | .lockEnded a c => [a, c.byte, 0x00#8, 0x00#8]
    | .targetState a h c => [a, h.byte, countByte c, 0x00#8]
    | .busState b => [b.byte, 0x00#8, 0x00#8, 0x00#8]
    | .overflow c => [countByte c, 0x00#8, 0x00#8, 0x00#8]

/-- The result record of a FETCH (Table 10-8); the data of a WRITE or PROBE result is empty (R17). -/
def Result.record (r : Result) : List Byte := [r.outcome.byte, countByte r.bytesDone] ++ r.data

/-- The last two bytes of the INFO record: the reset cause and the commanding port (Table 10-9). -/
def ResetCause.record : ResetCause → List Byte
  | .powerOn => [0x01#8, 0xFF#8]
  | .resetPin => [0x02#8, 0xFF#8]
  | .resetCommand p => [0x03#8, portNumber p]

/-- The INFO record (R162, Table 10-9). -/
def State.infoRecord (s : State) : List Byte := Config.infoFixed ++ [portNumber s.supervisor] ++ s.cause.record

/-- The four bytes of the uptime, most significant first (R26, Table 10-10). -/
def State.uptimeBytes (s : State) : List Byte :=
  [s.uptime.extractLsb' 24 8, s.uptime.extractLsb' 16 8, s.uptime.extractLsb' 8 8, s.uptime.extractLsb' 0 8]

/-- The STATUS record of a port (R163, Table 10-10). -/
def State.statusRecord (s : State) (p : Port) : List Byte :=
  [(s.port p).generation, countByte (s.tally p), countByte (s.queuedCount p),
   countByte (s.noticePort p).queue.length, s.monitor.state.byte] ++ s.uptimeBytes

/-- The age of a held value as MIRROR READ reports it (R71). -/
def State.reportedAge (s : State) (v : Option HeldValue) : Nat :=
  match v with
  | none => Config.ageMax
  | some x => min (s.now - x.time) Config.ageMax

/-- The MIRROR READ record of an entry (R71, Table 10-11). -/
def State.mirrorRecord (s : State) (u : MirrorUse) : List Byte :=
  [u.state.byte] ++ Half.bytes u.seqNo ++ Half.bytes (BitVec.ofNat 16 (s.reportedAge u.value)) ++
    [match u.lastOutcome with | some o => o.byte | none => 0xFF#8, countByte u.key.len] ++
    (match u.value with | some v => v.bytes | none => [])

/-- The TARGET QUERY record of a target, for the querying port (R81, Table 10-12). -/
def Target.queryRecord (x : Target) (t : TargetId) (p : Port) : List Byte :=
  [countByte t.val, x.health.byte, countByte x.failures, portByte (x.lock.map Hold.port), countByte x.waiters.length,
   flagBit (x.readSet.has p) 0 ||| flagBit (x.writeSet.has p) 1]

/-- What a completion tells of its target (Table 4-6). -/
inductive Evidence where
  | success | failure | neutral
  deriving DecidableEq, Repr

/-- The class of an accounted completion, by its outcome and whether the final address attempt was acknowledged (R84,
Table 4-6). The outcomes of completions without a transfer are not accounted. -/
def evidence (o : TransferOutcome) (addressed : Bool) : Evidence :=
  match o with
  | .ok | .dataNack => .success
  | .aborted => if addressed then .success else .neutral
  | .addressNack | .stretchTimeout => .failure
  | .busContended | .busFault | .lockLost | .notLocked | .targetQuarantined => .neutral

/-- Whether a byte that differs between two values is covered by a compare mask (R50, R62). -/
def coversChange (mask : Half) (old new : List Byte) : Bool :=
  (List.finRange 16).any fun i => mask.getLsbD i.val && old[i.val]? != new[i.val]?

end Sys2Proof.Machine
end

