-- ==== Sys2Proof/Machine/Pool.lean ====
section
/-! DEFINITION. The slot pool's shared operations (chapter 1): allocation, completion, completion without a transfer, and
what a session end does to a port's slots. -/

namespace Sys2Proof.Machine

open Sys2Proof

/-- The record written at allocation (R2, R11). -/
def State.newRequest (s : State) (p : Port) (d : Descriptor) : Request where
  state := .queued
  owner := p
  generation := (s.port p).generation
  orphan := false
  desc := d
  cls := d.cls
  mark := s.now
  attempts := 0
  losses := 0
  abortPending := false

/-- A slot is allocated to a port: its issue number is advanced, its record written, and it joins the tail of the port's
request list (R3, R11). -/
def State.allocate (s : State) (p : Port) (n : SlotId) (d : Descriptor) : State :=
  (s.setSlot n ⟨(s.slot n).issue + 1, some (s.newRequest p d)⟩).setList p (s.list p ++ [n])

/-- The COMPLETED notice of a slot (R13). -/
def State.completedNotice (s : State) (n : SlotId) (r : Request) (res : Result) : Notice :=
  .completed (ticketOf r.owner n (s.slot n).issue) res.outcome res.bytesDone

/-- A slot with its result written, in its owner's result set (steps 1 and 2 of R13). -/
def State.finishSlot (s : State) (n : SlotId) (r : Request) (res : Result) : State :=
  (s.unlist r.owner n).setSlot n
    ⟨(s.slot n).issue, some { r with state := .done res, abortPending := false }⟩

/-- Completion of a slot: the result is written, the slot becomes DONE, COMPLETED is offered if NOTIFY is set, and the slot
is freed if AUTO RELEASE is set (R13, R15); an orphan is freed at once, with no notice (R23). -/
def State.completeSlot (s : State) (n : SlotId) (res : Result) : State :=
  match s.request n with
  | none => s
  | some r =>
    if r.orphan then s.freeSlotOf n
    else
      let done := s.finishSlot n r res
      let told := if r.desc.notify then done.offer (s.completedNotice n r res) r.owner else done
      if r.desc.autoRelease then told.freeSlotOf n else told

/-- A result of a completion without a transfer (R14). -/
def Result.without (o : TransferOutcome) : Result := ⟨o, 0, []⟩

/-- The QUEUED slots of a port that satisfy a condition, oldest first. -/
def State.queuedSuch (s : State) (p : Port) (c : Request → Bool) : List SlotId :=
  (s.list p).filter fun n => (s.request n).any fun r => r.state == .queued && c r

/-- Completion without a transfer of the QUEUED slots of a port that satisfy a condition, oldest first (R14). -/
def State.completeQueued (s : State) (p : Port) (c : Request → Bool) (o : TransferOutcome) : State :=
  (s.queuedSuch p c).foldl (fun s n => s.completeSlot n (Result.without o)) s

/-- The same for every port (R14). -/
def State.completeQueuedAll (s : State) (c : Request → Bool) (o : TransferOutcome) : State :=
  Port.all.foldl (fun s p => s.completeQueued p c o) s

/-- What the end of a port's session does to one slot of the port: QUEUED and DONE slots are freed, an ACTIVE slot becomes
an orphan (R22). -/
def State.endSlot (s : State) (p : Port) (n : SlotId) : State :=
  match s.request n with
  | none => s
  | some r =>
    if r.owner == p then
      match r.state with
      | .queued | .done _ => s.freeSlotOf n
      | .active => (s.unlist p n).updRequest n fun r => { r with orphan := true }
    else s

/-- What the end of a port's session does to the pool (R22). -/
def State.endSlots (s : State) (p : Port) : State := (List.finRange 48).foldl (fun s n => s.endSlot p n) s

/-- Whether a QUEUED or ACTIVE slot of a port, an orphan included, is to a target (R78). -/
def State.slotTo (s : State) (p : Port) (addr : Byte) : Bool :=
  (List.finRange 48).any fun n =>
    (s.request n).any fun r => r.owner == p && !r.isDone && r.desc.target == addr

end Sys2Proof.Machine
end

