-- ==== Sys2Proof/Machine/Mirror.lean ====
section
/-! DEFINITION. The mirror table's shared operations (chapter 3): effective period and due time, staleness, polls, and what
the health of a target does to its entries. -/

namespace Sys2Proof.Machine

open Sys2Proof

/-! ## Sponsors -/

/-- The sponsors' records, in port order. -/
def MirrorUse.records (u : MirrorUse) : List Sponsor := Port.all.filterMap u.sponsors.get

/-- The effective period: the least period among the sponsor records (R50). -/
def MirrorUse.period (u : MirrorUse) : Nat :=
  match u.records with
  | [] => 0
  | x :: xs => xs.foldl (fun m y => min m y.period) x.period

/-- The stale limit of an entry (R65). -/
def State.staleLimit (s : State) (u : MirrorUse) : Nat := s.params.staleMultiple * u.period

/-- The notifying sponsors (R62). -/
def MirrorUse.notifying (u : MirrorUse) : List Port := Port.all.filter fun p => (u.sponsors.get p).any Sponsor.notify

/-- MIRROR STATE is offered to an entry's notifying sponsors. -/
def State.offerMirrorState (s : State) (e : EntryId) (u : MirrorUse) (m : MirrorState) : State :=
  s.offerTo (.mirrorState e m) u.notifying

/-! ## Pending polls -/

/-- The maintenance record of an item that becomes due, with its due time (R38, R39). -/
def State.newMaint (s : State) (due : Nat) : Maint := ⟨s.params.maintenanceClass, s.now, 0, due, false⟩

/-- A poll becomes due, with its due time; an entry has at most one pending poll (R57). -/
def State.makePollDue (s : State) (e : EntryId) (due : Nat) : State :=
  s.updEntry e fun u => { u with pending := u.pending <|> some (s.newMaint due) }

/-- Whether the poll that the engine runs is an entry's own: it carries the entry's issue number (R60;
the wrap of the number is notes/assumptions/35.md). -/
def State.pollRunning (s : State) (e : EntryId) : Bool :=
  match s.engine with
  | .transfer t =>
    match t.work with
    | .poll e' issue _ _ => e' == e && issue == (s.entry e).issue
    | _ => false
  | _ => false

/-- What a change of the sponsor set does to the poll due time (R56, Table 3-5). DESIGN CHOICE: the due timer may have expired
while the entry's poll runs, so that its next poll falls due at the completion (R57), when a change of sponsors moves the due
time into the future (R56), and no rule says which holds; the model lets the moved due time replace the expiry
(`dueAfterRun := none`; notes/assumptions/30.md). -/
def State.recomputeDue (s : State) (e : EntryId) : State :=
  match s.entryUse e with
  | none => s
  | some u =>
    if u.state = .failed then s
    else if u.pending.isSome then s
    else
      match u.lastStart with
      | none => s
      | some start =>
        let due := start + u.period
        if due ≤ s.now then
          let stopped := s.updEntry e fun u => { u with nextDue := some due, dueTimer := none }
          if s.pollRunning e then stopped.updEntry e fun u => { u with dueAfterRun := some due }
          else stopped.makePollDue e s.now
        else
          s.updEntry e fun u =>
            { u with nextDue := some due, dueTimer := some ⟨start, u.period⟩, dueAfterRun := none }

/-! ## Staleness -/

/-- A VALID entry goes STALE (R65). -/
def State.goStale (s : State) (e : EntryId) (u : MirrorUse) : State :=
  (s.updEntry e fun u => { u with state := .stale, staleTimer := none }).offerMirrorState e u .stale

/-- The stale limit of a VALID entry is re-evaluated (R66). -/
def State.recheckStale (s : State) (e : EntryId) : State :=
  match s.entryUse e with
  | none => s
  | some u =>
    if u.state = .valid then
      match u.value with
      | none => s
      | some v =>
        if v.time + s.staleLimit u ≤ s.now then s.goStale e u
        else s.updEntry e fun u => { u with staleTimer := some ⟨v.time, s.staleLimit u⟩ }
    else s

/-- Every VALID entry's stale limit is re-evaluated (R66). -/
def State.recheckAllStale (s : State) : State := (List.finRange 24).foldl (fun s e => s.recheckStale e) s

/-- A change of an entry's sponsor set that leaves sponsors: the effective period is recomputed, and the due time and the
stale limit follow it (R50, R56, R66). DESIGN CHOICE: on a join R51 offers no notice and R52 leaves the state, while R66 takes
a VALID entry whose age the new limit reaches to STALE with MIRROR STATE; R66 is followed (notes/assumptions/28.md). -/
def State.setSponsors (s : State) (e : EntryId) (sponsors : PerPort (Option Sponsor)) : State :=
  match s.entryUse e with
  | none => s
  | some u =>
    let changed := s.updEntry e fun u => { u with sponsors := sponsors }
    let due := changed.recomputeDue e
    if { u with sponsors := sponsors }.period = u.period then due else due.recheckStale e

/-- An entry is freed: it keeps only its issue number (R54). -/
def State.freeEntryOf (s : State) (e : EntryId) : State := s.setEntry e ⟨(s.entry e).issue, none⟩

/-- A port's sponsor record is removed from an entry; the entry is freed when it was the last (R54, R72). -/
def State.removeSponsor (s : State) (e : EntryId) (p : Port) : State :=
  match s.entryUse e with
  | none => s
  | some u =>
    if (u.sponsors.get p).isNone then s
    else
      let rest := u.sponsors.set p none
      if Port.all.all fun q => (rest.get q).isNone then s.freeEntryOf e else s.setSponsors e rest

/-- A port's session end removes its sponsor record from every entry that holds one (R72). -/
def State.endSponsorships (s : State) (p : Port) : State :=
  (List.finRange 24).foldl (fun s e => s.removeSponsor e p) s

/-- A FREE entry is taken for a new key: PRIMING with its poll due now, or FAILED when the target is QUARANTINED (R53). -/
def State.takeEntry (s : State) (e : EntryId) (p : Port) (k : Key) (sp : Sponsor) (quarantined : Bool) : State :=
  s.setEntry e ⟨(s.entry e).issue + 1, some {
    key := k
    sponsors := (PerPort.same none).set p (some sp)
    state := if quarantined then .failed else .priming
    nextDue := none
    lastStart := none
    value := none
    seqNo := 0#16
    lastOutcome := none
    dueTimer := none
    staleTimer := none
    pending := if quarantined then none else some (s.newMaint s.now)
    dueAfterRun := none }⟩

/-! ## Polls -/

/-- A pending poll starts: it leaves the pending state, and a first start, or a restart whose due timer has expired, records
the last poll start and sets the next due time from it (R59). -/
def State.startPoll (s : State) (e : EntryId) (rec : Maint) : State :=
  s.updEntry e fun u =>
    if rec.started && u.dueTimer.isSome then { u with pending := none }
    else
      { u with
        pending := none, lastStart := some s.now, nextDue := some (s.now + u.period)
        dueTimer := some ⟨s.now, u.period⟩, dueAfterRun := none }

/-- A successful poll's value is stored and the entry becomes VALID (steps 1 to 5 of R61). -/
def State.storeValue (s : State) (e : EntryId) (data : List Byte) (changed : Bool) : State :=
  s.updEntry e fun u =>
    { u with
      lastOutcome := some .ok, value := some ⟨data, s.now⟩, seqNo := if changed then u.seqNo + 1 else u.seqNo
      state := .valid, staleTimer := some ⟨s.now, s.staleLimit u⟩ }

/-- The sponsors offered MIRROR CHANGED after a successful poll: every notifying sponsor on a first value, and after that
those whose mask covers a byte that differs (R62). -/
def MirrorUse.toldOfChange (u : MirrorUse) (data : List Byte) : List Port :=
  match u.value with
  | none => u.notifying
  | some v =>
    u.notifying.filter fun p => (u.sponsors.get p).any fun sp => coversChange sp.mask v.bytes data

/-- A matching poll that completes OK (R61, R62). `u` is the entry as it stood before. DESIGN CHOICE: the state at completion
decides (R61), also for a poll that ran through an onset and the return from it; its bytes are stored, though R69 has the first
VALID value after a quarantine read after the return (notes/assumptions/36.md). -/
def State.pollOk (s : State) (e : EntryId) (u : MirrorUse) (data : List Byte) : State :=
  if u.state = .failed then s.updEntry e fun u => { u with lastOutcome := some .ok }
  else
    let changed : Bool := u.value.map HeldValue.bytes != some data
    let stored := s.storeValue e data changed
    let seqNo := if changed then u.seqNo + 1 else u.seqNo
    let told := stored.offerTo (.mirrorChanged e seqNo) (u.toldOfChange data)
    if u.state = .stale then told.offerMirrorState e u .valid else told

/-- The poll that fell due while the entry's poll was running falls due as that poll completes (R57). -/
def State.dueAfterPoll (s : State) (e : EntryId) : State :=
  match (s.entryUse e).bind MirrorUse.dueAfterRun with
  | none => s
  | some due => (s.updEntry e fun u => { u with dueAfterRun := none }).makePollDue e due

/-- A poll completes: it is discarded when its use of the entry has ended, and applied otherwise (R60, R61, R63). DESIGN CHOICE:
an entry freed and taken again 256 times while one poll runs has the 8-bit issue number of the poll again; R53 and R54 have the
numbers of two uses differ and R60 compares the numbers, which is what is done, so the old poll is applied
(notes/assumptions/35.md). A poll that ran through an onset and the return from it is applied too, and a poll made pending by
the return stays pending (notes/assumptions/36.md). -/
def State.completePoll (s : State) (e : EntryId) (issue : Byte) (o : TransferOutcome) (data : List Byte) : State :=
  match s.entryUse e with
  | none => s
  | some u =>
    if (s.entry e).issue = issue then
      let applied :=
        if o = .ok then s.pollOk e u data else s.updEntry e fun u => { u with lastOutcome := some o }
      applied.dueAfterPoll e
    else s

/-! ## Quarantine of the target (section 3.7) -/

/-- What quarantine onset does to one entry (R67). -/
def State.failEntry (s : State) (addr : Byte) (e : EntryId) : State :=
  match s.entryUse e with
  | none => s
  | some u =>
    if u.key.addr = addr then
      (s.updEntry e fun u =>
        { u with
          state := .failed, dueTimer := none, staleTimer := none, pending := none, nextDue := none
          dueAfterRun := none }).offerMirrorState e u .failed
    else s

/-- What quarantine onset does to the entries on a target (R67). -/
def State.failEntries (s : State) (addr : Byte) : State := (List.finRange 24).foldl (fun s e => s.failEntry addr e) s

/-- What the end of quarantine does to one entry: STALE or PRIMING with its poll due now (R68). -/
def State.returnEntry (s : State) (addr : Byte) (e : EntryId) : State :=
  match s.entryUse e with
  | none => s
  | some u =>
    if u.key.addr = addr ∧ u.state = .failed then
      let state : MirrorState := if u.value.isSome then .stale else .priming
      ((s.updEntry e fun u => { u with state := state, nextDue := none }).makePollDue e s.now).offerMirrorState e u state
    else s

/-- What the end of quarantine does to the entries on a target (R68). -/
def State.returnEntries (s : State) (addr : Byte) : State :=
  (List.finRange 24).foldl (fun s e => s.returnEntry addr e) s

end Sys2Proof.Machine
end

