-- ==== Sys2Proof/Machine/Dispatcher.lean ====
section
/-! DEFINITION. The dispatcher (chapter 2): eligibility, the NOT LOCKED completion, the candidates of the five participants,
selection and rotation, the start of the chosen work, and aging. -/

namespace Sys2Proof.Machine

open Sys2Proof

/-! ## Eligibility (Table 2-2) -/

/-- The slots of a port's request list that are older than a slot (R6). -/
def State.older (s : State) (p : Port) (n : SlotId) : List SlotId := (s.list p).takeWhile (· != n)

/-- Per-target order: no older slot of the port is to the same target (R32). -/
def State.orderHolds (s : State) (p : Port) (n : SlotId) (d : Descriptor) : Bool :=
  (s.older p n).all fun m => (s.request m).all fun r => r.desc.target != d.target

/-- Fence: no older slot of the port carries FENCE, and a slot with FENCE has no older slot (R33). -/
def State.fenceHolds (s : State) (p : Port) (n : SlotId) (d : Descriptor) : Bool :=
  ((s.older p n).all fun m => (s.request m).all fun r => !r.desc.fence) && (!d.fence || (s.older p n).isEmpty)

/-- Foreign lock: no other port holds the target's lock (R34). -/
def State.lockHolds (s : State) (p : Port) (d : Descriptor) : Bool := (s.holderAt d.target).all (· == p)

/-- Lock ownership: the request lacks UNDER LOCK, or the port holds the target's lock (R35). -/
def State.ownershipHolds (s : State) (p : Port) (d : Descriptor) : Bool :=
  !d.underLock || s.holderAt d.target == some p

/-- Whether a slot of a port's request list is QUEUED and eligible (R31). -/
def State.eligible (s : State) (p : Port) (n : SlotId) : Bool :=
  (s.request n).any fun r =>
    r.state == .queued && s.orderHolds p n r.desc && s.fenceHolds p n r.desc && s.lockHolds p r.desc
      && s.ownershipHolds p r.desc

/-- Whether a port waits for the lock of the target at an address (R93). -/
def State.waitsAt (s : State) (p : Port) (addr : Byte) : Bool := (s.targetAt addr).any fun x => x.awaits p

/-- Whether a QUEUED UNDER LOCK request completes NOT LOCKED: its port neither holds nor waits for the lock, and the
per-target order, fence and foreign-lock conditions hold (R36). -/
def State.notLockedDue (s : State) (p : Port) (n : SlotId) : Bool :=
  (s.request n).any fun r =>
    r.state == .queued && r.desc.underLock && s.orderHolds p n r.desc && s.fenceHolds p n r.desc
      && s.lockHolds p r.desc && s.holderAt r.desc.target != some p && !s.waitsAt p r.desc.target

/-- The NOT LOCKED completions of one port, oldest first. A completion bears on younger slots of the port alone, so one
pass finds them all (R36). -/
def State.notLockedOf (s : State) (p : Port) : State :=
  (s.list p).foldl (fun s n => if s.notLockedDue p n then s.completeSlot n (Result.without .notLocked) else s) s

/-- The NOT LOCKED completions of every port (R36). -/
def State.notLockedAll (s : State) : State := Port.all.foldl State.notLockedOf s

/-! ## Candidates -/

/-- A port's head candidate: the oldest eligible slot of its request list (R31). -/
def State.headCandidate (s : State) (p : Port) : Option SlotId := (s.list p).find? (s.eligible p)

/-- The maintenance record of work; none for a host request. -/
def Work.maint : Work → Option Maint
  | .request _ => none
  | .poll _ _ _ rec => some rec
  | .probe _ _ rec => some rec

/-- The due time of maintenance work. -/
def Work.due (w : Work) : Nat := (w.maint.map Maint.due).getD 0

/-- The pending probe of a target, if its target is not locked (R39, R89). -/
def State.probeItem (s : State) (t : TargetId) : Option Work :=
  match s.target t with
  | none => none
  | some x => if x.lock.isSome then none else x.probe.map fun rec => .probe t x.addr rec

/-- The pending poll of an entry, if its target is not locked (R39, R58). -/
def State.pollItem (s : State) (e : EntryId) : Option Work :=
  match s.entryUse e with
  | none => none
  | some u =>
    if (s.holderAt u.key.addr).isSome then none
    else u.pending.map fun rec => .poll e (s.entry e).issue u.key rec

/-- The eligible maintenance items: probes before polls, and each by rising number (R39). -/
def State.maintenanceItems (s : State) : List Work :=
  (List.finRange 32).filterMap s.probeItem ++ (List.finRange 24).filterMap s.pollItem

/-- The work of a list with the earliest due time, the first of them where several share it. -/
def earliest : List Work → Option Work
  | [] => none
  | w :: ws =>
    match earliest ws with
    | none => some w
    | some v => if w.due ≤ v.due then some w else some v

/-- M's candidate: the eligible item with the earliest due time (R39). -/
def State.maintenanceCandidate (s : State) : Option Work := earliest s.maintenanceItems

/-- The candidate that a participant offers (R31). -/
def State.candidate (s : State) : Participant → Option Work
  | .host p => (s.headCandidate p).map .request
  | .maintenance => s.maintenanceCandidate

/-- The current class of work. -/
def State.classOfWork (s : State) : Work → Option WorkClass
  | .request n => (s.request n).map Request.cls
  | .poll _ _ _ rec => some rec.cls
  | .probe _ _ rec => some rec.cls

/-- The class of the candidate that a participant offers. -/
def State.offeredClass (s : State) (x : Participant) : Option WorkClass := (s.candidate x).bind s.classOfWork

/-! ## Selection and rotation -/

/-- The rotation pointer of a class (R43). -/
def Pointers.get (ps : Pointers) : WorkClass → Participant
  | .urgent => ps.urgent | .normal => ps.normal | .bulk => ps.bulk

/-- The rotation pointers with one set (R43). -/
def Pointers.set (ps : Pointers) (c : WorkClass) (x : Participant) : Pointers :=
  match c with
  | .urgent => { ps with urgent := x }
  | .normal => { ps with normal := x }
  | .bulk => { ps with bulk := x }

/-- The participants in the cyclic order H0, H1, H2, H3, M, from the one after a participant to that one itself (R43). -/
def Participant.following : Participant → List Participant
  | .host .h0 => [.host .h1, .host .h2, .host .h3, .maintenance, .host .h0]
  | .host .h1 => [.host .h2, .host .h3, .maintenance, .host .h0, .host .h1]
  | .host .h2 => [.host .h3, .maintenance, .host .h0, .host .h1, .host .h2]
  | .host .h3 => [.maintenance, .host .h0, .host .h1, .host .h2, .host .h3]
  | .maintenance => [.host .h0, .host .h1, .host .h2, .host .h3, .maintenance]

/-- The participant chosen at a class: the first after the class's pointer whose candidate has that class (R43). -/
def State.choiceAt (s : State) (c : WorkClass) : Option Participant :=
  (s.pointers.get c).following.find? fun x => s.offeredClass x == some c

/-- The choice of a selection: the highest class among the candidates, and the participant by rotation (R43). -/
def State.choice (s : State) : Option (WorkClass × Participant) :=
  match s.choiceAt .urgent with
  | some x => some (.urgent, x)
  | none =>
    match s.choiceAt .normal with
    | some x => some (.normal, x)
    | none => (s.choiceAt .bulk).map fun x => (.bulk, x)

/-- The lower of two bit rates (R111). -/
def Rate.lower (a b : Rate) : Rate := if a.khz ≤ b.khz then a else b

/-- A transfer begun for work on the target at an address, with the rate and stretch limit as they stand (R111, R120). The
work of a running device is to a declared target; for any other address the cap and the limit are the defaults. -/
def State.newTransfer (s : State) (w : Work) (addr : Byte) : Transfer :=
  match s.targetAt addr with
  | some x => ⟨w, s.params.busRate.lower x.speed, x.stretchLimit, 0, none, false⟩
  | none => ⟨w, .khz100, Config.defaultStretch, 0, none, false⟩

/-- The chosen work is started: the slot becomes ACTIVE with attempt count 0, or the block that owns the item records the
start; and the engine goes to TRANSFER (R12, R30, R59, R89). -/
def State.startWork (s : State) (w : Work) : State :=
  match w with
  | .request n =>
    match s.request n with
    | none => s
    | some r =>
      (s.updRequest n fun r => { r with state := .active, attempts := 0 }).setEngine
        (.transfer (s.newTransfer w r.desc.target))
  | .poll e _ key rec => (s.startPoll e rec).setEngine (.transfer (s.newTransfer w key.addr))
  | .probe t addr _ =>
    (s.updTarget t fun x => { x with probe := none }).setEngine (.transfer (s.newTransfer w addr))

/-- Whether a selection can be made: the engine is IDLE and the monitor FREE (R29). -/
def State.canSelect (s : State) : Bool := s.engine == .idle && s.monitor.state == .free

/-- A selection, when its three conditions hold (R29, R43). -/
def State.select (s : State) : State :=
  if s.canSelect then
    match s.choice with
    | none => s
    | some (c, x) =>
      match s.candidate x with
      | none => s
      | some w => { s with pointers := s.pointers.set c x }.startWork w
  else s

/-- The dispatcher's re-evaluation at the end of an event: the NOT LOCKED completions, and then a selection (R29, R36,
R160; their place after the event's other notices is notes/assumptions/7.md, and those that come before a TARGET STATE are made
with it, R87). -/
def State.settle (s : State) : State := s.notLockedAll.select

/-! ## Aging (section 2.5) -/

/-- The class above a class; URGENT is promoted no further (R40). -/
def WorkClass.promoted : WorkClass → WorkClass
  | .bulk => .normal
  | .normal => .urgent
  | .urgent => .urgent

/-- Whether a class and a class mark call for a promotion: aging is on, the class is not URGENT, and the mark is as old as
the aging limit (R40). -/
def State.overdue (s : State) (c : WorkClass) (mark : Nat) : Bool :=
  decide (0 < s.params.agingLimit) && c != .urgent && decide (mark + s.params.agingLimit ≤ s.now)

/-- A request promoted one class, where its mark calls for it (R40, R41). -/
def Request.aged (s : State) (r : Request) : Request :=
  if s.overdue r.cls r.mark then { r with cls := r.cls.promoted, mark := s.now } else r

/-- A QUEUED request promoted one class, where its mark calls for it; an ACTIVE or DONE one is not promoted (R40). -/
def Request.agedQueued (s : State) (r : Request) : Request := if r.state = .queued then r.aged s else r

/-- A maintenance record promoted one class, where its mark calls for it (R40, R41). -/
def Maint.aged (s : State) (m : Maint) : Maint :=
  if s.overdue m.cls m.mark then { m with cls := m.cls.promoted, mark := s.now } else m

/-- The aging timer of one waiting piece of work expires (R40). -/
def State.ageOne (s : State) : Waiting → State
  | .slot n => s.updRequest n (Request.agedQueued s)
  | .poll e => s.updEntry e fun u => { u with pending := u.pending.map (Maint.aged s) }
  | .probe t => s.updTarget t fun x => { x with probe := x.probe.map (Maint.aged s) }

/-- A new aging limit: everything that waits and whose mark it has overtaken is promoted once (R41). -/
def State.ageAll (s : State) : State :=
  let slots := (List.finRange 48).foldl (fun s n => s.ageOne (.slot n)) s
  let polls := (List.finRange 24).foldl (fun s e => s.ageOne (.poll e)) slots
  (List.finRange 32).foldl (fun s t => s.ageOne (.probe t)) polls

/-- A maintenance record at a new maintenance class, marked now (R42). -/
def Maint.reclassed (s : State) (m : Maint) : Maint := { m with cls := s.params.maintenanceClass, mark := s.now }

/-- A new maintenance class: every pending item takes it (R42). -/
def State.reclassAll (s : State) : State :=
  let polls := (List.finRange 24).foldl (fun s e =>
    s.updEntry e fun u => { u with pending := u.pending.map (Maint.reclassed s) }) s
  (List.finRange 32).foldl (fun s t =>
    s.updTarget t fun x => { x with probe := x.probe.map (Maint.reclassed s) }) polls

end Sys2Proof.Machine
end

