-- ==== Sys2Proof/Machine/Targets.lean ====
section
/-! DEFINITION. The target table's shared operations (chapter 4): health accounting, quarantine onset and end, the schedule
of the internal probe, and the holdings that keep a target's access and entry. -/

namespace Sys2Proof.Machine

open Sys2Proof

/-- The attached ports that are in a target's read set or write set (R87). -/
def State.audience (s : State) (x : Target) : List Port :=
  s.attachedPorts.filter fun p => x.readSet.has p || x.writeSet.has p

/-- TARGET STATE is offered for a target as it stands (R87). Where the event also completes a request of a port, that COMPLETED
comes first: each occasion makes the NOT LOCKED completions that have come due before its notices (R36, R87; what else they
come after is notes/assumptions/7.md). -/
def State.offerTargetState (s : State) (t : TargetId) : State :=
  match s.target t with
  | none => s
  | some x => s.offerTo (.targetState x.addr x.health x.failures) (s.audience x)

/-- The probe due timer is set for the target's probe interval, and its expiry recorded as the probe due time (R88, R89). -/
def State.scheduleProbe (s : State) (t : TargetId) : State :=
  s.updTarget t fun x =>
    { x with probeTimer := some (s.timer x.probeInterval), probeDue := some (s.now + x.probeInterval) }

/-- Quarantine onset, in the order of R88; the NOT LOCKED completions that are due by then follow those of step 2 (R36, R87). -/
def State.quarantineOnset (s : State) (t : TargetId) : State :=
  match s.target t with
  | none => s
  | some x =>
    let marked := s.updTarget t fun x => { x with health := .quarantined }
    let completed :=
      marked.completeQueuedAll (fun r => r.desc.target == x.addr && r.desc.kind != .probe) .targetQuarantined
    ((completed.notLockedAll.failEntries x.addr).scheduleProbe t).offerTargetState t

/-- The end of quarantine, in the order of R90, which puts COMPLETED before MIRROR STATE and TARGET STATE (R36, R87). -/
def State.quarantineEnd (s : State) (t : TargetId) : State :=
  match s.target t with
  | none => s
  | some x =>
    let cleared := s.updTarget t fun x =>
      { x with health := .online, failures := 0, probeTimer := none, probeDue := none, probe := none }
    (cleared.notLockedAll.returnEntries x.addr).offerTargetState t

/-- A failure counted against a target (R85); going SUSPECT offers TARGET STATE after the event's COMPLETED (R36, R87). -/
def State.countFailure (s : State) (t : TargetId) : State :=
  match s.target t with
  | none => s
  | some x =>
    let n := min (x.failures + 1) Config.countMax
    let counted := s.updTarget t fun x => { x with failures := n }
    match x.health with
    | .quarantined => counted
    | .online =>
      if x.threshold ≤ n then counted.quarantineOnset t
      else (counted.updTarget t fun x => { x with health := .suspect }).notLockedAll.offerTargetState t
    | .suspect => if x.threshold ≤ n then counted.quarantineOnset t else counted

/-- A success counted for a target (R86). -/
def State.countSuccess (s : State) (t : TargetId) : State :=
  match s.target t with
  | none => s
  | some x =>
    match x.health with
    | .quarantined => s.quarantineEnd t
    | .online | .suspect => s.updTarget t fun x => { x with failures := 0, health := .online }

/-- Health accounting of a completion on the target at an address (R84). -/
def State.account (s : State) (addr : Byte) (o : TransferOutcome) (addressed : Bool) : State :=
  match s.findTarget addr with
  | none => s
  | some t =>
    match evidence o addressed with
    | .success => s.countSuccess t
    | .failure => s.countFailure t
    | .neutral => s

/-- What the completion of an internal probe does to the target's probe schedule, after the accounting (R89). -/
def State.reschedule (s : State) (t : TargetId) : State :=
  if (s.target t).any fun x => x.health == .quarantined then s.scheduleProbe t else s

/-! ## Holdings (R78, R80) -/

/-- Whether a port sponsors an entry on a target (R78). -/
def State.sponsorsOn (s : State) (p : Port) (addr : Byte) : Bool :=
  (List.finRange 24).any fun e =>
    (s.entryUse e).any fun u => u.key.addr == addr && (u.sponsors.get p).isSome

/-- Whether a port holds anything on a target that keeps its access from being taken away (R78). -/
def State.holdsOn (s : State) (p : Port) (x : Target) : Bool :=
  s.slotTo p x.addr || x.lock.any (fun h => h.port == p) || x.awaits p || s.sponsorsOn p x.addr

/-- Whether a port would be dropped from the read set or the write set by a redeclaration (R78). -/
def Target.drops (x : Target) (d : Declaration) (p : Port) : Bool :=
  (x.readSet.has p && !d.readSet.has p) || (x.writeSet.has p && !d.writeSet.has p)

/-- Whether a redeclaration is refused with IN USE (R78). -/
def State.redeclareInUse (s : State) (x : Target) (d : Declaration) : Bool :=
  Port.all.any fun p => x.drops d p && s.holdsOn p x

/-- Whether a mirror entry in use is on a target (R80). -/
def State.mirrored (s : State) (addr : Byte) : Bool :=
  (List.finRange 24).any fun e => (s.entryUse e).any fun u => u.key.addr == addr

/-- Whether a poll or a probe of a target runs on the engine (R80). -/
def State.maintenanceRuns (s : State) (addr : Byte) : Bool :=
  match s.engine with
  | .transfer t =>
    match t.work with
    | .request _ => false
    | .poll _ _ key _ => key.addr == addr
    | .probe _ a _ => a == addr
  | _ => false

/-- Whether a target's removal is refused with IN USE (R80). -/
def State.targetInUse (s : State) (x : Target) : Bool :=
  (Port.all.any fun p => s.slotTo p x.addr) || s.maintenanceRuns x.addr || s.mirrored x.addr || x.lock.isSome
    || !x.waiters.isEmpty

/-- The record of a new declaration (R76). -/
def Declaration.target (d : Declaration) : Target where
  addr := d.addr
  speed := d.speed
  stretchLimit := d.stretchLimit
  threshold := d.threshold
  probeInterval := d.probeInterval
  readSet := d.readSet
  writeSet := d.writeSet
  health := .online
  failures := 0
  probeDue := none
  probeTimer := none
  probe := none
  lock := none
  waiters := []

/-- A redeclaration's fields written into a record; the rest is kept (R77). -/
def Declaration.rewrite (d : Declaration) (x : Target) : Target :=
  { x with
    speed := d.speed, stretchLimit := d.stretchLimit, threshold := d.threshold, probeInterval := d.probeInterval
    readSet := d.readSet, writeSet := d.writeSet }

/-- A redeclaration taken: the fields are written, and a threshold at or below the count of a SUSPECT target starts
quarantine (R77, R79). DESIGN CHOICE: where the redeclaration also changes the port sets, no rule says whether the onset's
TARGET STATE (R87) goes to the ports of the sets before it or after it; the model writes the sets first and offers it to the
ports of the new sets (notes/assumptions/31.md). -/
def State.redeclare (s : State) (t : TargetId) (x : Target) (d : Declaration) : State :=
  let written := s.updTarget t d.rewrite
  if x.health = .suspect ∧ d.threshold ≤ x.failures then written.quarantineOnset t else written

end Sys2Proof.Machine
end

