-- ==== Sys2Proof/Machine/Locks.lean ====
section
/-! DEFINITION. The locks' shared operations (chapter 5): grant, release, and what a session end does to a port's locks. -/

namespace Sys2Proof.Machine

open Sys2Proof

/-- The lease granted for a requested lease: clamped to the maximum lock lease as it stands (R95, R104). -/
def State.clampLease (s : State) (requested : Nat) : Nat := min requested s.params.maxLease

/-- The lock of a target is granted to a port for a requested lease (R95). -/
def State.grant (s : State) (t : TargetId) (p : Port) (requested : Nat) : State :=
  s.updTarget t fun x => { x with lock := some ⟨p, s.timer (s.clampLease requested)⟩ }

/-- Step 4 of a release: the lock passes to the oldest waiter, who is offered LOCK GRANTED (R101, R104). -/
def State.grantNext (s : State) (t : TargetId) : State :=
  match s.target t with
  | none => s
  | some x =>
    match x.waiters with
    | [] => s
    | w :: ws =>
      ((s.updTarget t fun x => { x with waiters := ws }).grant t w.port w.lease).offer
        (.lockGranted x.addr (s.clampLease w.lease)) w.port

/-- Steps 1 to 4 of a release of the lock that a port holds on a target; `cause` is what LOCK ENDED carries, if the release
offers one (R101, R102, R104). Step 5 is the re-evaluation at the end of the event (R105). -/
def State.release (s : State) (t : TargetId) (p : Port) (cause : Option LockEnd) : State :=
  match s.target t with
  | none => s
  | some x =>
    let opened := s.updTarget t fun x => { x with lock := none }
    let lost := opened.completeQueued p (fun r => r.desc.target == x.addr && r.desc.underLock) .lockLost
    let told := match cause with | some c => lost.offer (.lockEnded x.addr c) p | none => lost
    told.grantNext t

/-- A port's wait entry leaves a target's wait list; the entries behind it move up (R93). -/
def State.leaveWait (s : State) (t : TargetId) (p : Port) : State :=
  s.updTarget t fun x => { x with waiters := x.waiters.filter fun w => w.port != p }

/-- What a port's session end does to one target's lock record (R106). -/
def State.endLock (s : State) (p : Port) (t : TargetId) : State :=
  match s.target t with
  | none => s
  | some x => if x.lock.any (fun h => h.port == p) then s.release t p none else s.leaveWait t p

/-- What a port's session end does to the locks (R106). -/
def State.endLocks (s : State) (p : Port) : State := (List.finRange 32).foldl (fun s t => s.endLock p t) s

end Sys2Proof.Machine
end

