-- ==== Sys2Proof/Machine/Session.lean ====
section
/-! DEFINITION. The end of a session (R160) and the opening of one (R159). -/

namespace Sys2Proof.Machine

open Sys2Proof

/-- A port's session ends: every block gives up the port's holdings. The pool, the locks and the mirror table act, the
notice block then empties the queue and restores the mask, and the host port empties the last-response buffer and goes
DETACHED (R22, R106, R72, R145, R160). -/
def State.endSession (s : State) (p : Port) : State :=
  ((((s.endSlots p).endLocks p).endSponsorships p).setNoticePort p NoticePort.fresh).updPort p fun h =>
    { h with attached := false, buffer := none }

/-- The generation of the next session: 255 is followed by 1 (R158). -/
def nextGeneration (g : Byte) : Byte := if g = 0xFF#8 then 0x01#8 else g + 1

/-- A session opens on a port (steps 2 and 3 of R159). -/
def State.openSession (s : State) (p : Port) : State :=
  s.updPort p fun h => { h with attached := true, generation := nextGeneration h.generation }

end Sys2Proof.Machine
end

