-- ==== Sys2Proof/Machine/Signals.lean ====
section
/-! DEFINITION. The conditions that the engine makes on the two lines of the field bus, the levels they bring, and the bits of
a byte (section 6.1). -/

namespace Sys2Proof.Machine

open Sys2Proof

/-- The field bus conditions made by the engine (Table 6-1). A data bit is told as it reads on FDA while FCL is high, an
acknowledge bit as ACK (`true`) or NACK. -/
inductive Condition where
  | start
  | repeatedStart
  | stop
  /-- a data bit of a byte that the engine transmits -/
  | sendBit (bit : Bool)
  /-- a data bit that the engine leaves to another device -/
  | readBit (bit : Bool)
  /-- the acknowledge bit of a byte that the engine transmitted -/
  | targetAck (ack : Bool)
  /-- the acknowledge bit of a byte that the engine received -/
  | engineAck (ack : Bool)
  deriving DecidableEq, Repr

/-- The level of FDA through the high phase of a bit's clock pulse; FDA low is ACK, FDA left high NACK (R110). -/
def Condition.bit : Condition → Option Bool
  | .start | .repeatedStart | .stop => none
  | .sendBit b | .readBit b => some b
  | .targetAck ack | .engineAck ack => some !ack

/-- Whether the engine itself pulls FDA low at the end of the condition: as a transmitter on a 0, as a receiver on its ACK, and
never on a bit that the other side drives (R110). -/
def Condition.pulls : Condition → Bool
  | .start | .repeatedStart => true
  | .stop => false
  | .sendBit b => !b
  | .engineAck ack => ack
  | .readBit _ | .targetAck _ => false

/-- The levels of the lines at the end of a condition: FCL is high, and FDA low after a START, high after a STOP, and at the
bit's level otherwise (Table 6-1). -/
def Condition.after (c : Condition) : Lines :=
  match c with
  | .start | .repeatedStart => ⟨true, false⟩
  | .stop => ⟨true, true⟩
  | .sendBit _ | .readBit _ | .targetAck _ | .engineAck _ => ⟨true, c.bit.getD true⟩

/-- The levels that a clock pulse passes through: FCL falls, FDA takes its level in the low phase, FCL is released (R110). -/
def pulse (l : Lines) (fda : Bool) : List Lines := [⟨false, l.fda⟩, ⟨false, fda⟩, ⟨true, fda⟩]

/-- The levels that a condition takes the lines through, one change after another (Table 6-1). A repeated START and a STOP move
FDA to its starting level in a low phase of FCL first. -/
def Condition.levels (l : Lines) (c : Condition) : List Lines :=
  match c with
  | .start => [c.after]
  | .repeatedStart => pulse l true ++ [c.after]
  | .stop => pulse l false ++ [c.after]
  | .sendBit _ | .readBit _ | .targetAck _ | .engineAck _ => pulse l c.after.fda

/-- The levels that a sequence of conditions takes the lines through. -/
def wave (l : Lines) : List Condition → List Lines
  | [] => []
  | c :: cs => c.levels l ++ wave c.after cs

/-- The bits of a byte in the order of the bus, most significant first (R110). -/
def msbFirst (b : Byte) : List Bool := (List.range 8).map b.getMsbD

/-- The whole bytes that a sequence of bits carries, most significant bit first (R110). -/
def octets : List Bool → List Byte
  | b7 :: b6 :: b5 :: b4 :: b3 :: b2 :: b1 :: b0 :: rest =>
    BitVec.ofBoolListBE [b7, b6, b5, b4, b3, b2, b1, b0] :: octets rest
  | _ => []

/-- The address byte: the 7-bit target address, then the direction, 1 for read (R110). -/
def addressByte (addr : Byte) (read : Bool) : Byte := addr.extractLsb' 0 7 ++ BitVec.ofBool read

/-- A byte that the engine transmits, with the target's answer in the ninth bit (R110). -/
def sendByte (b : Byte) (ack : Bool) : List Condition := (msbFirst b).map .sendBit ++ [.targetAck ack]

/-- A byte that the engine receives, with the engine's answer in the ninth bit (R110, R123). -/
def readByte (b : Byte) (ack : Bool) : List Condition := (msbFirst b).map .readBit ++ [.engineAck ack]

/-- The bytes of a read phase: ACK while more are to be read, NACK for the last (R123, R127). -/
def readBytes : List Byte → List Condition
  | [] => []
  | [b] => readByte b false
  | b :: c :: rest => readByte b true ++ readBytes (c :: rest)

end Sys2Proof.Machine
end

