-- ==== Sys2Proof/Machine/Engine.lean ====
section
/-! DEFINITION. The bus monitor's moves, recovery and fault, the completion report and the arbitration loss (chapter 6). -/

namespace Sys2Proof.Machine

open Sys2Proof

/-! ## Monitor moves -/

/-- Both lines read high. -/
def bothHigh (l : Lines) : Bool := l.fcl && l.fda

/-- Both lines high. -/
def linesHigh : Lines := ⟨true, true⟩

/-- The BUS FAULT flag is cleared and BUS STATE (RESTORED) offered, when the flag is set (R132). -/
def State.clearFault (s : State) : State :=
  if s.monitor.busFault then
    (s.setMonitor { s.monitor with busFault := false }).offerTo (.busState .restored) s.attachedPorts
  else s

/-- The monitor reaches FREE: its timers are stopped, the failed-attempt count returns to 0, and a fault is left (R113, R115,
R132). Both lines are high then. -/
def State.reachFree (s : State) : State :=
  (s.setMonitor { s.monitor with
    state := .free, failed := 0, hang := none, idle := none, retry := none, lines := linesHigh }).clearFault

/-- The monitor reaches FOREIGN on a change that leaves the lines at the given levels: the hang timer is set for the hang
limit from that change, the other timers are stopped, the failed-attempt count returns to 0, and a fault is left (R113, R114,
R115, R116, R132; that the entries whose rule is silent on the hang timer set it is DEDUCED, notes/assumptions/5.md). -/
def State.reachForeign (s : State) (lines : Lines) : State :=
  (s.setMonitor { s.monitor with
    state := .foreign, failed := 0, hang := some (s.timer s.params.hangLimit), idle := none, retry := none
    lines := lines }).clearFault

/-- A recovery attempt begins: the engine is in RECOVERY and the monitor RECOVERING, with its timers stopped (R117, R128,
R129, R131). -/
def State.beginAttempt (s : State) : State :=
  (s.setMonitor { s.monitor with state := .recovering, hang := none, idle := none, retry := none }).setEngine
    (.recovery true)

/-- A recovery sequence begins, with the count at 0 (R117, R125, R129). From a hang the monitor stands in HUNG within the
event alone (R117). -/
def State.beginSequence (s : State) : State :=
  (s.setMonitor { s.monitor with failed := 0 }).beginAttempt

/-- Entry into FAULTED, in the order of R130. -/
def State.enterFaulted (s : State) : State :=
  let waiting := (s.setMonitor { s.monitor with
    state := .faulted, hang := none, idle := none, retry := some (s.timer s.params.faultRetry) }).setEngine .idle
  let completed := waiting.completeQueuedAll (fun _ => true) .busFault
  if s.monitor.busFault then completed
  else
    (completed.setMonitor { completed.monitor with busFault := true }).offerTo (.busState .faulted)
      completed.attachedPorts

/-- A recovery attempt ends with the lines at the levels read: both high is success (R128, R129, R131). -/
def State.endAttempt (s : State) (lines : Lines) : State :=
  if bothHigh lines then ((s.setEngine .idle).reachFree).settle
  else
    let failed := min (s.monitor.failed + 1) Config.countMax
    let counted := s.setMonitor { s.monitor with failed := failed, lines := lines }
    if Config.faultAttempts ≤ failed then counted.enterFaulted
    else
      (counted.setMonitor { counted.monitor with hang := some (s.timer s.params.hangLimit) }).setEngine
        (.recovery false)

/-- The hang timer expires (R116, R117, R129): a line low in UNKNOWN or FOREIGN is a hang, both lines high in FOREIGN is FREE,
and between recovery attempts the next attempt begins. -/
def State.hangExpires (s : State) : State :=
  let stopped := s.setMonitor { s.monitor with hang := none }
  match s.monitor.state with
  | .unknown => if bothHigh s.monitor.lines then stopped else stopped.beginSequence
  | .foreign => if bothHigh s.monitor.lines then stopped.reachFree.settle else stopped.beginSequence
  | .recovering => if s.engine = .recovery false then stopped.beginAttempt else stopped
  | .free | .owned | .hung | .faulted => stopped

/-- A change of the hang limit: a running hang timer keeps its set point and takes the new length, and expires at once when
its set point is already as old (R117). -/
def State.retimeHang (s : State) : State :=
  match s.monitor.hang with
  | none => s
  | some t =>
    let timer : Timer := ⟨t.setAt, s.params.hangLimit⟩
    let retimed := s.setMonitor { s.monitor with hang := some timer }
    if timer.due s.now then retimed.hangExpires else retimed

/-! ## Transfers -/

/-- The completion report (R119): the outcome, the bytes done, the read data, and whether every address byte of the final
address attempt was acknowledged. -/
structure Report where
  outcome : TransferOutcome
  bytesDone : Nat
  data : List Byte
  addressed : Bool
  deriving DecidableEq, Repr

/-- What a transfer does on the field bus: kind, index length, write length and read length (R120). -/
structure Shape where
  kind : Kind
  index : Nat
  write : Nat
  read : Nat
  deriving DecidableEq, Repr

/-- What the engine takes from work: the kind, the target address, the index bytes, the write data and the read length
(R120). -/
structure BusWork where
  kind : Kind
  addr : Byte
  index : List Byte
  data : List Byte
  read : Nat
  deriving DecidableEq, Repr

/-- What the engine takes from the work handed to it: a poll is carried out as a READ or an INDEXED READ of the key's length,
a probe as a PROBE (R59, R89, R120). -/
def State.busWork (s : State) : Work → Option BusWork
  | .request n =>
    (s.request n).map fun r => ⟨r.desc.kind, r.desc.target, r.desc.index, r.desc.data, r.desc.readLen⟩
  | .poll _ _ k _ => some ⟨if k.index.isEmpty then .read else .indexedRead, k.addr, k.index, [], k.len⟩
  | .probe _ a _ => some ⟨.probe, a, [], [], 0⟩

/-- The shape of what the engine takes. -/
def BusWork.shape (w : BusWork) : Shape := ⟨w.kind, w.index.length, w.data.length, w.read⟩

/-- The shape of work (R59, R89, R120). -/
def State.shape (s : State) (w : Work) : Option Shape := (s.busWork w).map BusWork.shape

/-- Whether the abort-pending flag is set on the work; only a slot carries one (R126). -/
def State.abortPending (s : State) : Work → Bool
  | .request n => (s.request n).any Request.abortPending
  | _ => false

/-- The address attempts made in the current transfer: kept in the slot for a host request, in the engine for a poll or a
probe (R120). -/
def State.attempts (s : State) (t : Transfer) : Nat :=
  match t.work with
  | .request n => ((s.request n).map Request.attempts).getD 0
  | _ => t.attempts

/-- An address attempt begins: the attempt count advances (R121), and the transfer keeps whether abort-pending stands set as
it does (R126). -/
def State.countAttempt (s : State) (t : Transfer) : State :=
  let begun : Transfer := { t with flagAtStart := s.abortPending t.work }
  match t.work with
  | .request n => (s.updRequest n fun r => { r with attempts := r.attempts + 1 }).setEngine (.transfer begun)
  | _ => s.setEngine (.transfer { begun with attempts := t.attempts + 1 })

/-- Whether abort-pending stands set on the work and stood so at the START of the attempt under way (R126). -/
def State.abortStands (s : State) (t : Transfer) : Bool := t.flagAtStart && s.abortPending t.work

/-- The transfer whose address attempt is under way on the lines, with no line held in a stretch (R112, R115). -/
def State.onBus (s : State) : Option Transfer :=
  match s.engine with
  | .transfer t => if s.monitor.state = .owned ∧ t.stretch = none then some t else none
  | _ => none

/-- The transfer that waits to issue a START: before its first, or between two address attempts (R115, R121). -/
def State.beforeStart (s : State) : Option Transfer :=
  match s.engine with
  | .transfer t => if s.monitor.state = .free then some t else none
  | _ => none

/-- Whether a shape writes bytes of which some number can be acknowledged with a byte still to write (R122, R126). -/
def Shape.stopsAfter (sh : Shape) (written : Nat) : Bool :=
  match sh.kind with
  | .write => decide (written < sh.write ∨ written = 0)
  | .indexedRead => decide (written = 0)
  | .read | .probe => false

/-- Whether what a transfer has written and read lies no further than its first abort boundary: the acknowledge of a
write-direction address byte, with nothing written, or the eighth bit of a READ's first byte (Table 6-5). -/
def Shape.byFirstBoundary (sh : Shape) (written read : Nat) : Bool :=
  decide (written = 0 ∧ (read = 0 ∨ (sh.kind = .read ∧ read = 1)))

/-- Whether the first abort boundary is the transfer's last, at which a flag found set leaves the ordinary outcome: the
address of a PROBE, the byte of a READ of length 1 (R126, R127). -/
def Shape.endsAtFirstBoundary (sh : Shape) : Bool :=
  match sh.kind with
  | .probe => true
  | .read => decide (sh.read ≤ 1)
  | .write | .indexedRead => false

/-- The report of an end of a transfer other than by an address NACK, when the transfer can end so (R122, R123, R126, R127,
Table 1-12). `abort` says whether abort-pending is set now, and `early` whether it stood set at the START of the attempt: it
is then honoured at the first acknowledged boundary, and no later end is possible (R126, R127). A flag set after the START
is honoured at the next boundary, and how far the attempt had come by then is what the end tells (notes/assumptions/16.md). -/
def Shape.report (sh : Shape) (abort early : Bool) : TransferEnd → Option Report
  | .finished data =>
    if data.length = sh.read ∧ (early = false ∨ sh.endsAtFirstBoundary = true) then
      some ⟨.ok, if sh.kind = .write then sh.write else data.length, data, true⟩
    else none
  | .addressNack => none
  | .dataNack written =>
    if sh.stopsAfter written = true ∧ early = false then some ⟨.dataNack, written, [], true⟩ else none
  | .aborted written data =>
    if abort = false ∨ (early = true ∧ sh.byFirstBoundary written data.length = false) then none
    else
      match data with
      | [] => if sh.stopsAfter written then some ⟨.aborted, written, [], true⟩ else none
      | _ :: _ => if written = 0 ∧ data.length < sh.read then some ⟨.aborted, data.length, data, true⟩ else none

/-- Whether a transfer of a shape can have come as far as told when it is cut short (R124, R125); a flag that stood set at the
START lets it come to the first abort boundary (R126). -/
def Shape.reaches (sh : Shape) (early : Bool) (g : Progress) : Bool :=
  (!early || sh.byFirstBoundary g.written g.read.length) &&
    if g.addressed then
      match sh.kind with
      | .write => decide (g.written ≤ sh.write ∧ g.read = [])
      | .read | .indexedRead => decide (g.written = 0 ∧ g.read.length ≤ sh.read)
      | .probe => decide (g.written = 0 ∧ g.read = [])
    else decide (g.written = 0 ∧ g.read = [])

/-- Whether a transfer of a shape can be lost to another master with as much done as told: in an address, index or write data
byte (R124); with a flag that stood set at the START, in the first address byte alone (R126). DESIGN CHOICE: of an INDEXED
READ lost in an index byte no rule settles whether its address counts as acknowledged, and both are taken
(notes/assumptions/33.md). -/
def Shape.losesAfter (sh : Shape) (early : Bool) (g : Progress) : Bool :=
  g.read.isEmpty && (!early || !g.addressed) &&
    match sh.kind with
    | .write => decide (g.written = 0 ∨ (g.addressed = true ∧ g.written < sh.write))
    | .indexedRead => decide (g.written = 0)
    | .read | .probe => decide (g.written = 0) && !g.addressed

/-- A completion report reaches the block that asked for the transfer, and then the target table (R119). DEDUCED: a running
poll that ends DATA NACK on an entry FAILED by an onset is a success of the target (R84), so the entry leaves FAILED (R68, R86),
though Table 3-6 has it stay FAILED on an outcome other than OK (R69; notes/assumptions/29.md). -/
def State.deliver (s : State) (w : Work) (r : Report) : State :=
  match w with
  | .request n =>
    match s.request n with
    | none => s
    | some q =>
      (s.completeSlot n ⟨r.outcome, r.bytesDone, r.data⟩).account q.desc.target r.outcome r.addressed
  | .poll e issue key _ =>
    (s.completePoll e issue r.outcome r.data).account key.addr r.outcome r.addressed
  | .probe t addr _ => (s.account addr r.outcome r.addressed).reschedule t

/-- A transfer ends with its STOP: the engine goes to IDLE and the monitor to FREE, the report is delivered, and the
dispatcher may select (R115, R118, R119). -/
def State.finishTransfer (s : State) (w : Work) (r : Report) : State :=
  (((s.setEngine .idle).reachFree).deliver w r).settle

/-- An address byte is left unacknowledged: with attempts left the engine issues a STOP and waits to start again, and
otherwise the transfer completes ADDRESS NACK (R121). -/
def State.nackAddress (s : State) (t : Transfer) : State :=
  if s.attempts t < 1 + s.params.addressRetries then s.reachFree
  else s.finishTransfer t.work ⟨.addressNack, 0, [], false⟩

/-! ## Arbitration loss (R44, R45, R64, R89, R124) -/

/-- A request whose transfer was lost returns to QUEUED at its place, promoted where its mark calls for it (R40, R44). -/
def State.requeue (s : State) (n : SlotId) : State :=
  s.updRequest n fun r => Request.aged s { r with state := .queued }

/-- A host request's transfer is lost (R44, R45). -/
def State.loseRequest (s : State) (n : SlotId) (bytesDone : Nat) (addressed : Bool) : State :=
  match s.request n with
  | none => s
  | some r =>
    let counted := s.updRequest n fun r => { r with losses := r.losses + 1 }
    if r.abortPending then counted.deliver (.request n) ⟨.aborted, 0, [], addressed⟩
    else if r.orphan then counted.deliver (.request n) ⟨.busContended, bytesDone, [], addressed⟩
    else if (s.targetAt r.desc.target).any (fun x => x.health == .quarantined) && r.desc.kind != .probe then
      counted.completeSlot n (Result.without .targetQuarantined)
    else if r.losses + 1 < s.params.lossLimit then counted.requeue n
    else counted.deliver (.request n) ⟨.busContended, bytesDone, [], addressed⟩

/-- A maintenance record that goes back to waiting after a loss (R40, R45). -/
def Maint.lost (s : State) (m : Maint) : Maint := Maint.aged s { m with losses := m.losses + 1, started := true }

/-- A poll's transfer is lost below the limit: it stays pending if its use of the entry lasts and the entry is not FAILED, and
is discarded otherwise (R64); an entry that has a pending poll keeps that one (R38, notes/assumptions/9.md). A poll that
fell due during the run is covered by the pending one (R57). The use is known by the issue number
(notes/assumptions/35.md). -/
def State.repend (s : State) (e : EntryId) (issue : Byte) (rec : Maint) : State :=
  match s.entryUse e with
  | none => s
  | some u =>
    if (s.entry e).issue = issue ∧ u.state ≠ .failed then
      s.updEntry e fun u => { u with pending := u.pending <|> some (Maint.lost s rec), dueAfterRun := none }
    else s

/-- A probe's transfer is lost below the limit: it stays pending while its target is QUARANTINED (R89). -/
def State.reprobe (s : State) (t : TargetId) (rec : Maint) : State :=
  s.updTarget t fun x => if x.health = .quarantined then { x with probe := some (Maint.lost s rec) } else x

/-- A transfer is lost to another master: the engine goes to IDLE, the monitor to FOREIGN, and the loss to the dispatcher
(R44, R45, R124). -/
def State.loseTransfer (s : State) (w : Work) (lines : Lines) (bytesDone : Nat) (addressed : Bool) : State :=
  let lost := (s.setEngine .idle).reachForeign lines
  let handed :=
    match w with
    | .request n => lost.loseRequest n bytesDone addressed
    | .poll e issue _ rec =>
      if rec.losses + 1 < s.params.lossLimit then lost.repend e issue rec
      else lost.deliver w ⟨.busContended, 0, [], addressed⟩
    | .probe t _ rec =>
      if rec.losses + 1 < s.params.lossLimit then lost.reprobe t rec
      else lost.deliver w ⟨.busContended, 0, [], addressed⟩
  handed.settle

/-! ## What the monitor observes (R114, R115, R116, R129, R131) -/

/-- Whether the monitor classifies line changes: not in OWNED, nor during a recovery attempt (R114, R128). -/
def State.observes (s : State) : Bool := s.monitor.state != .owned && s.engine != .recovery true

/-- The lines after a START: FDA has fallen while FCL is high (R110, R114). -/
def linesAfterStart : Lines := Condition.start.after

/-- A START made by another device is observed (R114, R115, R116, R121, R131); in the wait between recovery attempts it ends
the sequence and stops the hang timer (R129). -/
def State.observeStart (s : State) : State :=
  if s.observes then
    match s.beforeStart with
    | some t => s.loseTransfer t.work linesAfterStart 0 false
    | none =>
      let moved := (s.setEngine .idle).reachForeign linesAfterStart
      if s.monitor.state = .recovering then moved.setMonitor { moved.monitor with hang := none } else moved
  else s

/-- A STOP is observed: UNKNOWN, FOREIGN and the wait between recovery attempts go to FREE, FAULTED stays, and in FREE there
is none to observe (R114, R116, R129, R131). -/
def State.observeStop (s : State) : State :=
  if s.observes then
    match s.monitor.state with
    | .unknown | .foreign | .recovering => ((s.setEngine .idle).reachFree).settle
    | .faulted => s.setMonitor { s.monitor with lines := linesHigh }
    | .free | .owned | .hung => s
  else s

/-- The lines after a change of one of them. -/
def changedLines (l : Lines) : LineChange → Lines
  | .fclFalls => { l with fcl := false }
  | .fclRises => { l with fcl := true }
  | .fdaFalls => { l with fda := false }
  | .fdaRises => { l with fda := true }

/-- Another line change is observed, which leaves the lines at the given levels (R114, R115, R116, R129, R131). -/
def State.observeOther (s : State) (lines : Lines) : State :=
  let seen := s.setMonitor { s.monitor with lines := lines }
  match s.monitor.state with
  | .unknown =>
    if bothHigh lines then
      seen.setMonitor { seen.monitor with idle := some (s.timer Config.idleConfirmation), hang := none }
    else seen.setMonitor { seen.monitor with idle := none, hang := some (s.timer s.params.hangLimit) }
  | .free =>
    match s.beforeStart with
    | some t => s.loseTransfer t.work lines 0 false
    | none => s.reachForeign lines
  | .foreign => seen.setMonitor { seen.monitor with hang := some (s.timer s.params.hangLimit) }
  | .recovering | .faulted | .hung | .owned => seen

/-- The monitor classifies a line change as a START, a STOP or other line activity (R114). What leaves both lines as they
were is no change. -/
def State.observeChange (s : State) (c : LineChange) : State :=
  let lines := s.monitor.lines
  if s.observes = false ∨ changedLines lines c = lines then s
  else if lines.fcl = true ∧ c = .fdaFalls then s.observeStart
  else if lines.fcl = true ∧ c = .fdaRises then s.observeStop
  else s.observeOther (changedLines lines c)

end Sys2Proof.Machine
end

