-- ==== Sys2Proof/Machine/Reset.lean ====
section
/-! DEFINITION. The resets: what every block takes in a reset, and the end of one (sections 8.8 and 9.5). -/

namespace Sys2Proof.Machine

open Sys2Proof

/-- Every block takes its reset values (Table 9-3; R24, R46, R73, R92, R109, R133, R146, R164, R168). The supervisor port,
the reset-cause record and the hold on the device are not of a block's reset values, and the queue of commands is the
model's own. `selected` names the ports whose chip select is low; `lines` are the levels of the lines. -/
def State.resetBlocks (s : State) (lines : Lines) (selected : Port → Bool) : State :=
  { s with
    params := Params.default
    now := 0
    ports := ⟨HostPort.atReset (selected .h0), HostPort.atReset (selected .h1), HostPort.atReset (selected .h2),
      HostPort.atReset (selected .h3)⟩
    notices := PerPort.same NoticePort.fresh
    slots := Vector.replicate 48 ⟨0#8, none⟩
    lists := PerPort.same []
    pointers := ⟨.maintenance, .maintenance, .maintenance⟩
    entries := Vector.replicate 24 ⟨0#8, none⟩
    targets := Vector.replicate 32 none
    engine := .idle
    monitor := Monitor.atReset lines }

/-- The monitor reads the lines as a reset ends: both high set the idle confirmation timer, a line low sets the hang timer
(R114, R133). -/
def State.readLines (s : State) : State :=
  if bothHigh s.monitor.lines then
    s.setMonitor { s.monitor with idle := some (s.timer Config.idleConfirmation), hang := none }
  else s.setMonitor { s.monitor with idle := none, hang := some (s.timer s.params.hangLimit) }

/-- The device goes into reset with its blocks at their reset values (R174, R175). While it is held in reset the chip selects
and the lines are not read. -/
def State.enterReset (s : State) (hold : ResetHold) : State :=
  { s.resetBlocks linesHigh (fun _ => false) with hold := hold }

/-- A reset ends: the blocks stand at their reset values, with the lines and the chip selects as they are then; the straps are
sampled, the cause is recorded, and the time base starts at 0 (R166, R174, R175, R177). -/
def State.leaveReset (s : State) (straps : BitVec 2) (cause : ResetCause) (lines : Lines) (selected : PortSet) : State :=
  { (s.resetBlocks lines selected.has).readLines with
    hold := ⟨false, false, false⟩, supervisor := Port.ofBits straps, cause := cause }

/-- The reset of RESET PART is taken, whole, at the rising chip select of the port that sent it: the straps are not sampled,
and the cause is the command of that port (R176, R177). -/
def State.takeResetPart (s : State) (p : Port) (lines : Lines) : State :=
  { (s.resetBlocks lines fun q => q != p && (s.port q).selected).readLines with cause := .resetCommand p }

end Sys2Proof.Machine
end

