-- ==== Sys2Proof/Machine/FrameEvents.lean ====
section
/-! DEFINITION. The meanings of the frame events (sections 8.1 and 8.8) and of the reset events (section 9.5). An event that
cannot occur in the state it meets leaves the state as it is (notes/assumptions/3.md). -/

namespace Sys2Proof.Machine

open Sys2Proof

/-- An event: taken unless the device is held in reset (R174, R175). -/
def State.event (s : State) (s' : State) : Answer := .next (if s.inReset then s else s')

/-- FRAME_OPEN: a falling nCSn in IDLE opens a frame, and the port status byte is captured (R147, R148). -/
def execFrameOpen (p : Port) (s : State) : Answer :=
  s.event (if (s.port p).frame = .idle ∧ (s.port p).selected = false then
    s.updPort p fun h =>
      { h with frame := .header, selected := true, statusOut := some (s.statusByte p), response := none }
  else s)

/-- STATUS_BYTE_SHIFTED_OUT: the eighth bit of the status byte goes out, and the two frame flags are cleared (R148). -/
def execStatusByteShiftedOut (p : Port) (s : State) : Answer :=
  s.event (if (s.port p).frame = .header ∧ (s.port p).statusOut.isSome then
    s.updPort p fun h => { h with statusOut := none, frameAbandoned := false, checkError := false }
  else s)

/-- The port after the rising nCSn that ends its frame: IDLE with nothing to shift out (R147). -/
def HostPort.closed (h : HostPort) : HostPort :=
  { h with frame := .idle, selected := false, statusOut := none, response := none }

/-- FRAME_ABANDONED: nCSn rises in HEADER (R149). -/
def execFrameAbandoned (p : Port) (s : State) : Answer :=
  s.event (if (s.port p).frame = .header then
    s.updPort p fun h => { h.closed with frameAbandoned := true }
  else s)

/-- FRAME_END: nCSn rises in RESPONSE (R149). Where a RESET PART is pending on the frame, the same edge takes the reset
(R176), with the lines as they were last read (notes/assumptions/6.md). -/
def execFrameEnd (p : Port) (s : State) : Answer :=
  s.event (if (s.port p).frame = .response then
    if (s.port p).resetPending then s.takeResetPart p s.monitor.lines else s.updPort p HostPort.closed
  else s)

/-- RESET_PART_TAKEN: the rising nCSn that ends the frame of a RESET PART (R176). -/
def execResetPartTaken (p : Port) (lines : Lines) (s : State) : Answer :=
  s.event (if (s.port p).frame = .response ∧ (s.port p).resetPending = true then s.takeResetPart p lines else s)

/-- NCS_RISE_IN_IDLE: an nCSn that was low as a reset ended rises (R164). -/
def execNcsRiseInIdle (p : Port) (s : State) : Answer :=
  s.event (if (s.port p).frame = .idle then s.updPort p fun h => { h with selected := false } else s)

/-- POWER_ON_RESET: the supply is applied or lost (R174). -/
def execPowerOnReset (s : State) : Answer := .next (s.enterReset ⟨true, s.hold.nrst, true⟩)

/-- POWER_ON_RESET_END: with nRST high the reset ends; with nRST low the device stays in reset (R174). -/
def execPowerOnResetEnd (straps : BitVec 2) (lines : Lines) (selected : PortSet) (s : State) : Answer :=
  .next (if s.hold.supply then
    if s.hold.nrst then { s with hold := { s.hold with supply := false } }
    else s.leaveReset straps .powerOn lines selected
  else s)

/-- NRST_LOW (R175). -/
def execNrstLow (s : State) : Answer := .next (s.enterReset { s.hold with nrst := true })

/-- NRST_RELEASE: the reset ends, unless the power-on reset still lasts; the cause is POWER-ON where the device has not run
since power was applied (R174, R175). -/
def execNrstRelease (straps : BitVec 2) (lines : Lines) (selected : PortSet) (s : State) : Answer :=
  .next (if s.hold.nrst then
    if s.hold.supply then { s with hold := { s.hold with nrst := false } }
    else s.leaveReset straps (if s.hold.coldStart then .powerOn else .resetPin) lines selected
  else s)

end Sys2Proof.Machine
end

