-- ==== Sys2Proof/Machine/Phases.lean ====
section
/-! DEFINITION. The phases of a transfer and of a recovery attempt as conditions on the field bus (R110, R120, R128): what the
engine puts on the lines between the START of an address attempt and the event that ends it. -/

namespace Sys2Proof.Machine

open Sys2Proof

/-- The bytes that an address attempt transmits, each with the condition that goes before it (Tables 6-4 and 6-5). -/
def BusWork.sent (w : BusWork) : List (List Condition × Byte) :=
  let plain := fun bytes : List Byte => bytes.map fun b => (([] : List Condition), b)
  match w.kind with
  | .write => ([.start], addressByte w.addr false) :: plain (w.index ++ w.data)
  | .read => [([.start], addressByte w.addr true)]
  | .indexedRead =>
    ([.start], addressByte w.addr false) :: plain w.index ++ [([.repeatedStart], addressByte w.addr true)]
  | .probe => [([.start], addressByte w.addr false)]

/-- How an address attempt goes, as the other devices on the bus and the abort-pending flag bring it about. Transmitted bytes
are numbered from 0, the first address byte. -/
inductive Course where
  /-- every transmitted byte is acknowledged, and the bytes told are read, the last of them left unacknowledged -/
  | ran (data : List Byte)
  /-- transmitted byte k is left unacknowledged (R121, R122) -/
  | refused (k : Nat)
  /-- the flag is honoured after the acknowledge of transmitted byte k (R126) -/
  | stopped (k : Nat)
  /-- arbitration is lost on bit j of transmitted byte k, in the order of the bus: a bit that the engine releases high (R124) -/
  | lost (k j : Nat)
  deriving DecidableEq, Repr

/-- Bytes transmitted with the target's answer to each. -/
def sendAll (ack : Bool) (bytes : List (List Condition × Byte)) : List Condition :=
  bytes.flatMap fun x => x.1 ++ sendByte x.2 ack

/-- The conditions on the lines in an address attempt that goes as told (Tables 6-1, 6-4 and 6-5). At an arbitration loss the
bit that the engine released reads low, and no STOP follows (R124). -/
def BusWork.signals (w : BusWork) : Course → List Condition
  | .ran data => sendAll true w.sent ++ readBytes data ++ [.stop]
  | .refused k => sendAll true (w.sent.take k) ++ sendAll false ((w.sent.drop k).take 1) ++ [.stop]
  | .stopped k => sendAll true (w.sent.take (k + 1)) ++ [.stop]
  | .lost k j =>
    sendAll true (w.sent.take k)
      ++ ((w.sent.drop k).take 1).flatMap (fun x => x.1 ++ ((msbFirst x.2).take j).map .sendBit) ++ [.readBit false]

/-- Whether transmitted byte k is an address byte (R110, Table 6-4). -/
def BusWork.addressAt (w : BusWork) (k : Nat) : Bool :=
  decide (k = 0 ∨ (w.kind = .indexedRead ∧ k = 1 + w.index.length))

/-- What TRANSFER_COMPLETION tells of an address attempt that ends with its STOP (R121, R122, R123, R126, R127). A flag found
set after the last byte of a phase of writing leaves the ordinary end, and one after a read address byte stops nothing. -/
def BusWork.told (w : BusWork) : Course → Option TransferEnd
  | .ran data =>
    if data.length = w.read then some (.finished data)
    else if data ≠ [] ∧ data.length < w.read then some (.aborted 0 data)
    else none
  | .refused k =>
    if w.sent.length ≤ k then none
    else if w.addressAt k then some .addressNack
    else some (.dataNack (k - 1 - w.index.length))
  | .stopped k => if k + 1 < w.sent.length then some (.aborted (k - w.index.length) []) else none
  | .lost _ _ => none

/-- How many transmitted bytes the target has acknowledged. -/
def targetAcks (l : List Condition) : Nat := l.count (.targetAck true)

/-- The data bits that the engine has read. -/
def bitsRead (l : List Condition) : List Bool :=
  l.filterMap fun
    | .readBit b => some b
    | .start | .repeatedStart | .stop | .sendBit _ | .targetAck _ | .engineAck _ => none

/-- How far conditions on the lines have brought an address attempt, for an attempt cut short: by an arbitration loss, or at
the expiry of the stretch timer after any number of its conditions (R124, R125). A received byte counts once its eighth bit
is in (R123). DESIGN CHOICE: an INDEXED READ counts as addressed once both its address bytes are acknowledged (R119, R124),
though R122 and R126 count its address as acknowledged in the index bytes (notes/assumptions/33.md). -/
def BusWork.progress (w : BusWork) (l : List Condition) : Progress where
  addressed := decide ((if w.kind = .indexedRead then 2 + w.index.length else 1) ≤ targetAcks l)
  written := if w.kind = .write then targetAcks l - 1 - w.index.length else 0
  read := octets (bitsRead l)

/-- The conditions that the engine's address attempt puts on the lines if it goes as told: none unless a transfer is on the
bus, for the engine then makes none and acknowledges no byte of another master (R110, R115, R116). -/
def State.signals (s : State) (c : Course) : List Condition :=
  match s.engine with
  | .transfer t => if s.monitor.state = .owned then ((s.busWork t.work).map fun w => w.signals c).getD [] else []
  | .idle | .recovery _ => []

/-! ## Recovery attempts (R128) -/

/-- How a recovery attempt goes, as the other devices on the bus bring it about. -/
inductive Attempt where
  /-- after k whole pulses FCL reads low as the engine releases it, at the attempt's beginning, in a pulse or in the STOP: the
  attempt fails at once, with FDA at the level told -/
  | clockHeld (k : Nat) (fda : Bool)
  /-- after k pulses the STOP is made, and the lines then read as told -/
  | ended (k : Nat) (lines : Lines)
  deriving DecidableEq, Repr

/-- Whether an attempt can go as told from the levels that the lines read at once the engine has released both: FDA is pulsed
out only where it reads low, nine times at most, and with FCL low nothing follows (R128). -/
def Attempt.possible (l : Lines) : Attempt → Bool
  | .clockHeld k _ => decide (k ≤ Config.recoveryPulses ∧ (k ≠ 0 → l = ⟨true, false⟩))
  | .ended k _ => decide (k ≤ Config.recoveryPulses ∧ l.fcl = true ∧ (k = 0 ↔ l.fda = true))

/-- The pulses of FCL with FDA left to the device that holds it. DESIGN CHOICE: no rule says when within a pulse FDA rises, and
every pulse is told as reading low (notes/assumptions/34.md). -/
def freeingPulses (k : Nat) : List Condition := List.replicate k (.readBit false)

/-- The conditions on the lines in a recovery attempt (R128). An attempt that fails at once makes no STOP. Where FDA reads low
after the engine drove it low and released it, no STOP has come about: FDA has stayed low through the high phase of FCL. -/
def Attempt.signals : Attempt → List Condition
  | .clockHeld k _ => freeingPulses k
  | .ended k lines => freeingPulses k ++ [if lines.fda then .stop else .sendBit false]

/-- The levels of the lines as an attempt ends, which RECOVERY_ATTEMPT_END carries (R128). -/
def Attempt.told : Attempt → Lines
  | .clockHeld _ fda => ⟨false, fda⟩
  | .ended _ lines => lines

/-- The levels that an attempt takes the lines through, from those it finds: those of its conditions, and where FCL then reads
low, the levels that another device has brought (R128). -/
def Attempt.levels (l : Lines) (a : Attempt) : List Lines := wave l a.signals ++ if a.told.fcl then [] else [a.told]

/-- The conditions that the engine's recovery attempt puts on the lines if it goes as told: none unless an attempt is under way,
for in the wait between two attempts the engine drives nothing (R118, R128, R129). -/
def State.recoverySignals (s : State) (a : Attempt) : List Condition :=
  match s.engine with
  | .recovery true => a.signals
  | .recovery false | .idle | .transfer _ => []

end Sys2Proof.Machine
end

