-- ==== Sys2Proof/Machine/BusEvents.lean ====
section
/-! DEFINITION. The meanings of the events of the field bus (chapter 6): those of the engine's own transfers and recovery
attempts, and those that the monitor observes. -/

namespace Sys2Proof.Machine

open Sys2Proof

/-- START: after the bus-free time the engine issues the START of an address attempt (R115, R121). -/
def execStart (s : State) : Answer :=
  s.event (match s.beforeStart with
    | none => s
    | some t => (s.setMonitor { s.monitor with state := .owned, lines := linesAfterStart }).countAttempt t)

/-- ADDRESS_ATTEMPT_NACK: an address byte is left unacknowledged (R121). -/
def execAddressAttemptNack (s : State) : Answer :=
  s.event (match s.onBus with
    | none => s
    | some t => s.nackAddress t)

/-- The end of the transfer on the bus, when it can end as told (R119, R121, R122, R123, R126, R127). -/
def State.endTransfer (s : State) (t : Transfer) (how : TransferEnd) : State :=
  match how with
  | .addressNack => s.nackAddress t
  | .finished _ | .dataNack _ | .aborted _ _ =>
    match (s.shape t.work).bind fun sh => sh.report (s.abortPending t.work) (s.abortStands t) how with
    | none => s
    | some r => s.finishTransfer t.work r

/-- TRANSFER_COMPLETION (R119). -/
def execTransferCompletion (how : TransferEnd) (s : State) : Answer :=
  s.event (match s.onBus with
    | none => s
    | some t => s.endTransfer t how)

/-- ARBITRATION_LOSS (R124). -/
def execArbitrationLoss (g : Progress) (s : State) : Answer :=
  s.event (match s.onBus with
    | none => s
    | some t =>
      if (s.shape t.work).any fun sh => sh.losesAfter (s.abortStands t) g then
        s.loseTransfer t.work linesAfterStart g.written g.addressed
      else s)

/-- LINE_ACTIVITY_BEFORE_START: another device moves a line while the engine waits to issue a START (R121). -/
def execLineActivityBeforeStart (line : Line) (s : State) : Answer :=
  s.event (match s.beforeStart with
    | none => s
    | some t =>
      match line with
      | .fda => s.loseTransfer t.work linesAfterStart 0 false
      | .fcl => s.loseTransfer t.work ⟨false, true⟩ 0 false)

/-- CLOCK_STRETCH_START: a released line reads low, and the stretch timer is set (R112). -/
def execClockStretchStart (s : State) : Answer :=
  s.event (match s.onBus with
    | none => s
    | some t => s.setEngine (.transfer { t with stretch := some (s.timer t.stretchLimit) }))

/-- CLOCK_STRETCH_END: the line rises, and the transfer goes on (R112). -/
def execClockStretchEnd (s : State) : Answer :=
  s.event (match s.engine with
    | .transfer t => if s.monitor.state = .owned then s.setEngine (.transfer { t with stretch := none }) else s
    | _ => s)

/-- RECOVERY_ATTEMPT_END, with the lines as they read at the end of the attempt (R128). -/
def execRecoveryAttemptEnd (lines : Lines) (s : State) : Answer :=
  s.event (if s.engine = .recovery true then s.endAttempt lines else s)

/-- FOREIGN_START (R115). -/
def execForeignStart (s : State) : Answer := s.event s.observeStart

/-- FOREIGN_STOP (R116). -/
def execForeignStop (s : State) : Answer := s.event s.observeStop

/-- LINE_ACTIVITY (R114). -/
def execLineActivity (c : LineChange) (s : State) : Answer := s.event (s.observeChange c)

end Sys2Proof.Machine
end

