-- ==== Sys2Proof/Machine/LockCommands.lean ====
section
/-! DEFINITION. The meanings of LOCK, RENEW, UNLOCK and FORCE UNLOCK (chapter 5). -/

namespace Sys2Proof.Machine

open Sys2Proof

/-- A reply that carries a lease length. -/
def grantedReply (lease : Nat) : Reply := ⟨.granted, Half.bytes (BitVec.ofNat 16 lease)⟩

/-- LOCK on a target that is held by another port (orders 6 and 7 of Table 5-2; R96). -/
def State.joinOrReport (s : State) (p : Port) (t : TargetId) (x : Target) (holder : Port) (lease : Nat) (wait : Bool) :
    State × Reply :=
  if wait then
    (s.updTarget t fun x => { x with waiters := x.waiters ++ [⟨p, lease⟩] },
     ⟨.waiting, [countByte (x.waiters.length + 1)]⟩)
  else (s, Reply.plain (.held holder))

/-- LOCK, by the conditions of Table 5-2 in their order (R94, R95, R96). -/
def lockBody (p : Port) (addr : Byte) (lease : Nat) (wait : Bool) (s : State) : State × Reply :=
  match s.lookup addr with
  | none => (s, Reply.plain .unknownTarget)
  | some (t, x) =>
    if !(x.readSet.has p || x.writeSet.has p) then (s, Reply.plain .notPermitted)
    else if x.lock.any (fun h => h.port == p) then (s, Reply.plain .alreadyHeld)
    else if x.awaits p then (s, Reply.plain .alreadyWaiting)
    else
      match x.lock with
      | none => ((s.grant t p lease).settle, grantedReply (s.clampLease lease))
      | some h => s.joinOrReport p t x h.port lease wait

/-- LOCK (R94). -/
def execLock (p : Port) (addr : Byte) (lease : Half) (flags : Byte) (s : State) : Answer :=
  .next (s.command p .session (lockArg addr lease flags) fun a s => lockBody p a.1 a.2.1 a.2.2 s)

/-- RENEW: the lease restarts, and is clamped to the maximum lock lease as it stands (R97). -/
def renewBody (p : Port) (addr : Byte) (s : State) : State × Reply :=
  match s.lookup addr with
  | none => (s, Reply.plain .unknownTarget)
  | some (t, x) =>
    match x.lock with
    | none => (s, Reply.plain .notHolder)
    | some h => if h.port = p then (s.grant t p h.lease.length, grantedReply (s.clampLease h.lease.length))
      else (s, Reply.plain .notHolder)

/-- RENEW (R97). -/
def execRenew (p : Port) (addr : Byte) (s : State) : Answer :=
  .next (s.command p .session (addressArg addr) fun a s => renewBody p a s)

/-- UNLOCK by the holder releases the lock, by a waiter removes its wait entry (R98). -/
def unlockBody (p : Port) (addr : Byte) (s : State) : State × Reply :=
  match s.lookup addr with
  | none => (s, Reply.plain .unknownTarget)
  | some (t, x) =>
    if x.lock.any (fun h => h.port == p) then ((s.release t p none).settle, Reply.plain .done)
    else if x.awaits p then (s.leaveWait t p, Reply.plain .done)
    else (s, Reply.plain .notHolder)

/-- UNLOCK (R98). -/
def execUnlock (p : Port) (addr : Byte) (s : State) : Answer :=
  .next (s.command p .session (addressArg addr) fun a s => unlockBody p a s)

/-- FORCE UNLOCK releases whichever port holds the lock, and names it (R100). -/
def forceUnlockBody (addr : Byte) (s : State) : State × Reply :=
  match s.lookup addr with
  | none => (s, Reply.plain .unknownTarget)
  | some (t, x) =>
    match x.lock with
    | none => (s, ⟨.done, [portByte none]⟩)
    | some h => ((s.release t h.port (some .forced)).settle, ⟨.done, [portByte (some h.port)]⟩)

/-- FORCE UNLOCK (R100). -/
def execForceUnlock (p : Port) (addr : Byte) (s : State) : Answer :=
  .next (s.command p .supervisor (addressArg addr) fun a s => forceUnlockBody a s)

end Sys2Proof.Machine
end

