-- ==== Sys2Proof/Machine/MirrorCommands.lean ====
section
/-! DEFINITION. The meanings of MIRROR DEFINE, MIRROR DROP, MIRROR FIND and MIRROR READ (chapter 3). -/

namespace Sys2Proof.Machine

open Sys2Proof

/-- A reply that carries an entry number. -/
def entryReply (e : EntryId) : Reply := ⟨.done, [countByte e.val]⟩

/-- A port joins an entry in use: its sponsor record is replaced or added (R52). -/
def State.joinEntry (s : State) (e : EntryId) (p : Port) (sp : Sponsor) : State :=
  match s.entryUse e with
  | none => s
  | some u => s.setSponsors e (u.sponsors.set p (some sp))

/-- MIRROR DEFINE, by the conditions of Table 3-4 in their order (R51, R52, R53). -/
def mirrorDefineBody (p : Port) (k : Key) (sp : Sponsor) (s : State) : State × Reply :=
  match s.targetAt k.addr with
  | none => (s, Reply.plain .unknownTarget)
  | some x =>
    if !x.readSet.has p then (s, Reply.plain .notPermitted)
    else
      match s.findEntry k with
      | some e => ((s.joinEntry e p sp).settle, entryReply e)
      | none =>
        match s.freeEntry with
        | none => (s, Reply.plain .tableFull)
        | some e => ((s.takeEntry e p k sp (x.health == .quarantined)).settle, entryReply e)

/-- MIRROR DEFINE (R51). -/
def execMirrorDefine (p : Port) (key : KeyArgs) (period : Half) (flags : Byte) (mask : Half) (s : State) : Answer :=
  .next (s.command p .session (defineArg key period flags mask) fun a s => mirrorDefineBody p a.1 a.2 s)

/-- MIRROR DROP (R54). -/
def mirrorDropBody (p : Port) (e : EntryId) (s : State) : State × Reply :=
  match s.entryUse e with
  | none => (s, Reply.plain .notFound)
  | some u =>
    if (u.sponsors.get p).isNone then (s, Reply.plain .notSponsor)
    else ((s.removeSponsor e p).settle, Reply.plain .done)

/-- MIRROR DROP (R54). -/
def execMirrorDrop (p : Port) (entry : Byte) (s : State) : Answer :=
  .next (s.command p .session (entryArg entry) fun e s => mirrorDropBody p e s)

/-- What MIRROR FIND answers (R55). -/
def State.mirrorFindReply (s : State) (p : Port) (k : Key) : Reply :=
  match s.targetAt k.addr with
  | none => Reply.plain .unknownTarget
  | some x =>
    if !x.readSet.has p then Reply.plain .notPermitted
    else
      match s.findEntry k with
      | some e => entryReply e
      | none => Reply.plain .notFound

/-- MIRROR FIND (R55). -/
def execMirrorFind (p : Port) (key : KeyArgs) (s : State) : Answer :=
  .next (s.command p .session (keyArg key) fun k s => (s, s.mirrorFindReply p k))

/-- What MIRROR READ answers (R70, R71). -/
def State.mirrorReadReply (s : State) (p : Port) (e : EntryId) : Reply :=
  match s.entryUse e with
  | none => Reply.plain .notFound
  | some u =>
    if (s.targetAt u.key.addr).any fun x => x.readSet.has p then ⟨.done, s.mirrorRecord u⟩
    else Reply.plain .notPermitted

/-- MIRROR READ (R70, R71). -/
def execMirrorRead (p : Port) (entry : Byte) (s : State) : Answer :=
  .next (s.command p .session (entryArg entry) fun e s => (s, s.mirrorReadReply p e))

end Sys2Proof.Machine
end

