-- ==== Sys2Proof/Machine/NoticeCommands.lean ====
section
/-! DEFINITION. The meanings of READ NOTICE and SET NOTICE MASK (chapter 7). -/

namespace Sys2Proof.Machine

open Sys2Proof

/-- READ NOTICE: the head entry is removed and returned with the number that remain (R142). -/
def readNoticeBody (p : Port) (s : State) : State × Reply :=
  match (s.noticePort p).queue with
  | [] => (s, Reply.plain .empty)
  | n :: rest =>
    (s.setNoticePort p { s.noticePort p with queue := rest }, ⟨.done, countByte rest.length :: n.record⟩)

/-- READ NOTICE (R142). -/
def execReadNotice (p : Port) (s : State) : Answer :=
  .next (s.command p .session (some ()) fun _ s => readNoticeBody p s)

/-- SET NOTICE MASK (R137). -/
def execSetNoticeMask (p : Port) (mask : Byte) (s : State) : Answer :=
  .next (s.command p .session (maskArg mask) fun m s =>
    (s.setNoticePort p { s.noticePort p with mask := m }, ⟨.done, [m]⟩))

end Sys2Proof.Machine
end

