-- ==== Sys2Proof/Machine/PoolCommands.lean ====
section
/-! DEFINITION. The meanings of SUBMIT, CANCEL and FETCH (chapter 1). -/

namespace Sys2Proof.Machine

open Sys2Proof

/-- The access that a kind needs (R10, Table 4-4). -/
def Target.permits (x : Target) (p : Port) (k : Kind) : Bool :=
  match k with
  | .write | .probe => x.writeSet.has p
  | .read => x.readSet.has p
  | .indexedRead => x.readSet.has p && x.writeSet.has p

/-- The first SUBMIT condition that holds (Table 1-9). -/
def State.submitRefusal (s : State) (p : Port) (d : Descriptor) : Option Code :=
  if s.monitor.state = .faulted then some .busFault
  else
    match s.targetAt d.target with
    | none => some .unknownTarget
    | some x =>
      if !x.permits p d.kind then some .notPermitted
      else if x.health = .quarantined ∧ d.kind ≠ .probe then some .quarantined
      else if !s.quotaPasses p then some .quotaExhausted
      else none

/-- SUBMIT of a valid descriptor (R10, R11). When the quota check passes a FREE slot exists (R8). -/
def submitBody (p : Port) (d : Descriptor) (s : State) : State × Reply :=
  match s.submitRefusal p d with
  | some c => (s, Reply.plain c)
  | none =>
    match s.freeSlot with
    | none => (s, Reply.plain .quotaExhausted)
    | some n => ((s.allocate p n d).settle, ⟨.accepted, Half.bytes (ticketOf p n ((s.slot n).issue + 1))⟩)

/-- SUBMIT (R5, R10, R11, R181). A term whose counted bytes are not as many as its length fields state is no header. -/
def execSubmit (p : Port) (args : SubmitArgs) (s : State) : Answer :=
  if args.tail.length = args.indexLength + args.writeLength then
    .next (s.command p .session (descriptorArg args) (submitBody p))
  else .refused .illFormed

/-- CANCEL of a valid ticket's slot, by its state (R18). -/
def cancelBody (p : Port) (ticket : Half) (s : State) : State × Reply :=
  match s.ticketSlot p ticket with
  | none => (s, Reply.plain .unknownTicket)
  | some (n, r) =>
    match r.state with
    | .queued => ((s.freeSlotOf n).settle, Reply.plain .cancelled)
    | .active => (s.updRequest n fun r => { r with abortPending := true }, Reply.plain .aborting)
    | .done _ => (s, Reply.plain .tooLate)

/-- CANCEL (R18). -/
def execCancel (p : Port) (ticket : Half) (s : State) : Answer :=
  .next (s.command p .session (some ()) fun _ s => cancelBody p ticket s)

/-- FETCH of a valid ticket's slot, by its state (R20). -/
def fetchBody (p : Port) (ticket : Half) (keep : Bool) (s : State) : State × Reply :=
  match s.ticketSlot p ticket with
  | none => (s, Reply.plain .unknownTicket)
  | some (n, r) =>
    match r.state with
    | .done res => (if keep then s else s.freeSlotOf n, ⟨.done, res.record⟩)
    | .queued => (s, ⟨.notDone, [SlotState.byte .queued]⟩)
    | .active => (s, ⟨.notDone, [SlotState.byte .active]⟩)

/-- FETCH (R20). -/
def execFetch (p : Port) (ticket : Half) (flags : Byte) (s : State) : Answer :=
  .next (s.command p .session (some ()) fun _ s => fetchBody p ticket (flagArg flags) s)

end Sys2Proof.Machine
end

