-- ==== Sys2Proof/Machine/SessionCommands.lean ====
section
/-! DEFINITION. The meanings of the commands that need no session: INFO, STATUS, ATTACH, DETACH, REPEAT RESPONSE and GET
PARAMETER; and of the headers that execute nothing. -/

namespace Sys2Proof.Machine

open Sys2Proof

/-- INFO (R162). -/
def execInfo (p : Port) (s : State) : Answer :=
  .next (s.command p .any (some ()) fun _ s => (s, ⟨.done, s.infoRecord⟩))

/-- STATUS (R163). -/
def execStatus (p : Port) (s : State) : Answer :=
  .next (s.command p .any (some ()) fun _ s => (s, ⟨.done, s.statusRecord p⟩))

/-- ATTACH taken on a port (R159). -/
def attachBody (p : Port) (s : State) : State × Reply :=
  if s.params.admitted.has p then
    let opened := if (s.port p).attached then ((s.endSession p).openSession p).settle else s.openSession p
    (opened, ⟨.done, [nextGeneration (s.port p).generation]⟩)
  else (s, Reply.plain .portDisabled)

/-- ATTACH (R159). -/
def execAttach (p : Port) (s : State) : Answer := .next (s.command p .any (some ()) fun _ s => attachBody p s)

/-- DETACH (R160). -/
def execDetach (p : Port) (s : State) : Answer :=
  .next (s.command p .any (some ()) fun _ s =>
    (if (s.port p).attached then (s.endSession p).settle else s, Reply.plain .done))

/-- REPEAT RESPONSE: the stored response goes out byte for byte, and the buffer is kept (R156, R157). -/
def execRepeatResponse (p : Port) (s : State) : Answer :=
  .next (if s.takesHeader p then
    s.shiftOut p ((s.port p).buffer.getD (Reply.plain .empty).bytes)
  else s)

/-- GET PARAMETER (R171). -/
def execGetParameter (p : Port) (ident : Byte) (s : State) : Answer :=
  .next (s.command p .any (paramArg ident) fun k s => (s, ⟨.done, ident :: Half.bytes (s.params.value k)⟩))

/-- A header whose code names no command (R150, R154); a code that names one makes no such header. -/
def execUnknownCommand (p : Port) (code : Byte) (s : State) : Answer :=
  if commandCodes.contains code then .refused .illFormed
  else .next (if s.takesHeader p then s.respond p (Reply.plain .unknownCommand) else s)

/-- A header whose check byte disagrees: nothing is executed, and the last-response buffer is kept (R151, R156). -/
def execCheckError (p : Port) (s : State) : Answer :=
  .next (if s.takesHeader p then
    (s.shiftOut p (Reply.plain .checkError).bytes).updPort p fun h => { h with checkError := true }
  else s)

end Sys2Proof.Machine
end

