-- ==== Sys2Proof/Machine/SupervisorCommands.lean ====
section
/-! DEFINITION. The meanings of SET PARAMETER, EVICT PORT, BUS RESET and RESET PART (chapter 9). -/

namespace Sys2Proof.Machine

open Sys2Proof

/-- What the owning rule does when a parameter has changed (Table 9-1): the other parameters are read at later events. -/
def State.actOn (s : State) : Param → State
  | .agingLimit => s.ageAll
  | .maintenanceClass => s.reclassAll
  | .staleMultiple => s.recheckAllStale
  | .hangLimit => s.retimeHang
  | .busRate | .addressRetries | .lossLimit | .faultRetry | .maxLease | .admitted => s

/-- SET PARAMETER with a value in range; a value equal to the one held changes nothing (R169). -/
def setParameterBody (ident : Byte) (k : Param) (ps : Params) (s : State) : State × Reply :=
  (if ps = s.params then s else { s with params := ps }.actOn k, ⟨.done, ident :: Half.bytes (ps.value k)⟩)

/-- SET PARAMETER (R169). -/
def execSetParameter (p : Port) (ident : Byte) (value : Half) (s : State) : Answer :=
  .next (s.command p .supervisor (setParamArg s.params s.supervisor ident value) fun a s =>
    setParameterBody ident a.1 a.2 s)

/-- EVICT PORT (R172). -/
def execEvictPort (p : Port) (named : Byte) (s : State) : Answer :=
  .next (s.command p .supervisor (evictArg s.supervisor named) fun q s =>
    (if (s.port q).attached then (s.endSession q).settle else s, Reply.plain .done))

/-- BUS RESET: one recovery attempt begins from FAULTED; in every other state the answer is BUSY (R173). -/
def busResetBody (s : State) : State × Reply :=
  if s.monitor.state = .faulted then (s.beginAttempt, Reply.plain .done) else (s, Reply.plain .busy)

/-- BUS RESET (R173). -/
def execBusReset (p : Port) (s : State) : Answer :=
  .next (s.command p .supervisor (some ()) fun _ s => busResetBody s)

/-- RESET PART: answered DONE, and the reset is pending for the rest of the frame (R176). -/
def execResetPart (p : Port) (s : State) : Answer :=
  .next (s.command p .supervisor (some ()) fun _ s =>
    (s.updPort p fun h => { h with resetPending := true }, Reply.plain .done))

end Sys2Proof.Machine
end

