-- ==== Sys2Proof/Machine/TargetCommands.lean ====
section
/-! DEFINITION. The meanings of TARGET QUERY, DECLARE TARGET, REMOVE TARGET and CLEAR QUARANTINE (chapter 4). -/

namespace Sys2Proof.Machine

open Sys2Proof

/-- A reply that carries a target index. -/
def indexReply (t : TargetId) : Reply := ⟨.done, [countByte t.val]⟩

/-- What TARGET QUERY answers (R81). -/
def State.targetQueryReply (s : State) (p : Port) (addr : Byte) : Reply :=
  match s.lookup addr with
  | none => Reply.plain .unknownTarget
  | some (t, x) => ⟨.done, x.queryRecord t p⟩

/-- TARGET QUERY (R81). -/
def execTargetQuery (p : Port) (addr : Byte) (s : State) : Answer :=
  .next (s.command p .session (addressArg addr) fun a s => (s, s.targetQueryReply p a))

/-- DECLARE TARGET of a checked declaration (R76, R77, R78, R79). -/
def declareBody (d : Declaration) (s : State) : State × Reply :=
  match s.lookup d.addr with
  | some (t, x) =>
    if s.redeclareInUse x d then (s, Reply.plain .inUse) else ((s.redeclare t x d).settle, indexReply t)
  | none =>
    match s.freeTarget with
    | none => (s, Reply.plain .tableFull)
    | some t => (s.setTarget t (some d.target), indexReply t)

/-- DECLARE TARGET (R76). -/
def execDeclareTarget (p : Port) (args : DeclareArgs) (s : State) : Answer :=
  .next (s.command p .supervisor (declareArg args) declareBody)

/-- REMOVE TARGET (R80). -/
def removeBody (addr : Byte) (s : State) : State × Reply :=
  match s.lookup addr with
  | none => (s, Reply.plain .unknownTarget)
  | some (t, x) => if s.targetInUse x then (s, Reply.plain .inUse) else (s.setTarget t none, Reply.plain .done)

/-- REMOVE TARGET (R80). -/
def execRemoveTarget (p : Port) (addr : Byte) (s : State) : Answer :=
  .next (s.command p .supervisor (addressArg addr) removeBody)

/-- CLEAR QUARANTINE, by the target's health (R91). -/
def clearBody (addr : Byte) (s : State) : State × Reply :=
  match s.lookup addr with
  | none => (s, Reply.plain .unknownTarget)
  | some (t, x) =>
    match x.health with
    | .quarantined => ((s.quarantineEnd t).settle, Reply.plain .done)
    | .suspect => (s.updTarget t fun x => { x with failures := 0, health := .online }, Reply.plain .done)
    | .online => (s, Reply.plain .done)

/-- CLEAR QUARANTINE (R91). -/
def execClearQuarantine (p : Port) (addr : Byte) (s : State) : Answer :=
  .next (s.command p .supervisor (addressArg addr) clearBody)

end Sys2Proof.Machine
end

