-- ==== Sys2Proof/Machine/TimerEvents.lean ====
section
/-! DEFINITION. The meanings of the millisecond boundary (R26) and of the timer expiries (Table 2-1). An expiry is taken when
its timer runs and the boundary count has reached its expiry; a stopped timer does not expire (R27). -/

namespace Sys2Proof.Machine

open Sys2Proof

/-- MILLISECOND_BOUNDARY (R26). -/
def execMillisecondBoundary (s : State) : Answer := s.event { s with now := s.now + 1 }

/-- CLASS_AGING_EXPIRY (R40). -/
def execClassAgingExpiry (w : Waiting) (s : State) : Answer := s.event (s.ageOne w)

/-- LOCK_LEASE_EXPIRY (R99). -/
def execLockLeaseExpiry (t : TargetId) (s : State) : Answer :=
  s.event (match (s.target t).bind Target.lock with
    | none => s
    | some h => if h.lease.due s.now then (s.release t h.port (some .expired)).settle else s)

/-- An entry's poll due timer expires: a poll becomes due, unless one is pending; while the entry's poll runs it becomes due
as that poll completes (R57). -/
def State.pollTimerExpires (s : State) (e : EntryId) (u : MirrorUse) (t : Timer) : State :=
  let stopped := s.updEntry e fun u => { u with dueTimer := none }
  if u.pending.isSome then stopped
  else if s.pollRunning e then stopped.updEntry e fun u => { u with dueAfterRun := some t.expiry }
  else (stopped.makePollDue e t.expiry).settle

/-- MIRROR_POLL_DUE (R57). -/
def execMirrorPollDue (e : EntryId) (s : State) : Answer :=
  s.event (match s.entryUse e with
    | none => s
    | some u =>
      match u.dueTimer with
      | none => s
      | some t => if t.due s.now then s.pollTimerExpires e u t else s)

/-- STALE_LIMIT_EXPIRY (R65). -/
def execStaleLimitExpiry (e : EntryId) (s : State) : Answer :=
  s.event (match s.entryUse e with
    | none => s
    | some u => if u.state = .valid ∧ timerDue u.staleTimer s.now = true then s.goStale e u else s)

/-- PROBE_DUE_EXPIRY (R89). -/
def execProbeDueExpiry (t : TargetId) (s : State) : Answer :=
  s.event (match (s.target t).bind Target.probeTimer with
    | none => s
    | some timer =>
      if timer.due s.now then
        (s.updTarget t fun x =>
          { x with probeTimer := none, probe := x.probe <|> some (s.newMaint timer.expiry) }).settle
      else s)

/-- The stretch timer expires: the transfer completes STRETCH TIMEOUT with what was done before the stretch, and a recovery
sequence begins (R125). -/
def State.stretchExpires (s : State) (t : Transfer) (g : Progress) : State :=
  (s.beginSequence.deliver t.work ⟨.stretchTimeout, g.written + g.read.length, g.read, g.addressed⟩).settle

/-- STRETCH_TIMEOUT (R125). -/
def execStretchTimeout (g : Progress) (s : State) : Answer :=
  s.event (match s.engine with
    | .transfer t =>
      if s.monitor.state = .owned ∧ timerDue t.stretch s.now = true
          ∧ (s.shape t.work).any (fun sh => sh.reaches (s.abortStands t) g) = true then
        s.stretchExpires t g
      else s
    | _ => s)

/-- HANG_TIMER_EXPIRY: in UNKNOWN and in FOREIGN (R116, R117). -/
def execHangTimerExpiry (s : State) : Answer :=
  s.event (if timerDue s.monitor.hang s.now = true ∧ (s.monitor.state = .unknown ∨ s.monitor.state = .foreign) then
    s.hangExpires
  else s)

/-- NEXT_RECOVERY_ATTEMPT: in the wait between two attempts (R129). -/
def execNextRecoveryAttempt (s : State) : Answer :=
  s.event (if timerDue s.monitor.hang s.now = true ∧ s.monitor.state = .recovering then s.hangExpires else s)

/-- IDLE_CONFIRMATION_EXPIRY (R114). -/
def execIdleConfirmationExpiry (s : State) : Answer :=
  s.event (if s.monitor.state = .unknown ∧ timerDue s.monitor.idle s.now = true ∧ bothHigh s.monitor.lines = true then
    s.reachFree.settle
  else s)

/-- FAULT_RETRY_EXPIRY (R131). -/
def execFaultRetryExpiry (s : State) : Answer :=
  s.event (if s.monitor.state = .faulted ∧ timerDue s.monitor.retry s.now = true then s.beginAttempt else s)

end Sys2Proof.Machine
end

