-- ==== Sys2Proof/Machine/Dispatch.lean ====
section
/-! DEFINITION. The meaning of every command: one arm for each constructor of `Instr`, in the order of
spec/opcode_table.json. -/

namespace Sys2Proof.Machine

def exec (i : Instr) (s : State) : Host.Outcome State Fault Refusal :=
  match i with
  | .info p => Sys2Proof.Machine.execInfo p s
  | .status p => Sys2Proof.Machine.execStatus p s
  | .attach p => Sys2Proof.Machine.execAttach p s
  | .detach p => Sys2Proof.Machine.execDetach p s
  | .repeatResponse p => Sys2Proof.Machine.execRepeatResponse p s
  | .getParameter p ident => Sys2Proof.Machine.execGetParameter p ident s
  | .submit p args => Sys2Proof.Machine.execSubmit p args s
  | .cancel p ticket => Sys2Proof.Machine.execCancel p ticket s
  | .fetch p ticket flags => Sys2Proof.Machine.execFetch p ticket flags s
  | .readNotice p => Sys2Proof.Machine.execReadNotice p s
  | .setNoticeMask p mask => Sys2Proof.Machine.execSetNoticeMask p mask s
  | .lock p addr lease flags => Sys2Proof.Machine.execLock p addr lease flags s
  | .renew p addr => Sys2Proof.Machine.execRenew p addr s
  | .unlock p addr => Sys2Proof.Machine.execUnlock p addr s
  | .mirrorDefine p key period flags mask => Sys2Proof.Machine.execMirrorDefine p key period flags mask s
  | .mirrorDrop p entry => Sys2Proof.Machine.execMirrorDrop p entry s
  | .mirrorFind p key => Sys2Proof.Machine.execMirrorFind p key s
  | .mirrorRead p entry => Sys2Proof.Machine.execMirrorRead p entry s
  | .targetQuery p addr => Sys2Proof.Machine.execTargetQuery p addr s
  | .declareTarget p args => Sys2Proof.Machine.execDeclareTarget p args s
  | .removeTarget p addr => Sys2Proof.Machine.execRemoveTarget p addr s
  | .clearQuarantine p addr => Sys2Proof.Machine.execClearQuarantine p addr s
  | .forceUnlock p addr => Sys2Proof.Machine.execForceUnlock p addr s
  | .setParameter p ident value => Sys2Proof.Machine.execSetParameter p ident value s
  | .evictPort p named => Sys2Proof.Machine.execEvictPort p named s
  | .busReset p => Sys2Proof.Machine.execBusReset p s
  | .resetPart p => Sys2Proof.Machine.execResetPart p s
  | .unknownCommand p code => Sys2Proof.Machine.execUnknownCommand p code s
  | .checkError p => Sys2Proof.Machine.execCheckError p s
  | .frameOpen p => Sys2Proof.Machine.execFrameOpen p s
  | .frameAbandoned p => Sys2Proof.Machine.execFrameAbandoned p s
  | .frameEnd p => Sys2Proof.Machine.execFrameEnd p s
  | .resetPartTaken p lines => Sys2Proof.Machine.execResetPartTaken p lines s
  | .powerOnReset => Sys2Proof.Machine.execPowerOnReset s
  | .powerOnResetEnd straps lines selected => Sys2Proof.Machine.execPowerOnResetEnd straps lines selected s
  | .nrstLow => Sys2Proof.Machine.execNrstLow s
  | .nrstRelease straps lines selected => Sys2Proof.Machine.execNrstRelease straps lines selected s
  | .classAgingExpiry w => Sys2Proof.Machine.execClassAgingExpiry w s
  | .lockLeaseExpiry t => Sys2Proof.Machine.execLockLeaseExpiry t s
  | .mirrorPollDue e => Sys2Proof.Machine.execMirrorPollDue e s
  | .staleLimitExpiry e => Sys2Proof.Machine.execStaleLimitExpiry e s
  | .probeDueExpiry t => Sys2Proof.Machine.execProbeDueExpiry t s
  | .stretchTimeout progress => Sys2Proof.Machine.execStretchTimeout progress s
  | .hangTimerExpiry => Sys2Proof.Machine.execHangTimerExpiry s
  | .nextRecoveryAttempt => Sys2Proof.Machine.execNextRecoveryAttempt s
  | .idleConfirmationExpiry => Sys2Proof.Machine.execIdleConfirmationExpiry s
  | .faultRetryExpiry => Sys2Proof.Machine.execFaultRetryExpiry s
  | .transferCompletion how => Sys2Proof.Machine.execTransferCompletion how s
  | .arbitrationLoss progress => Sys2Proof.Machine.execArbitrationLoss progress s
  | .start => Sys2Proof.Machine.execStart s
  | .lineActivityBeforeStart line => Sys2Proof.Machine.execLineActivityBeforeStart line s
  | .recoveryAttemptEnd lines => Sys2Proof.Machine.execRecoveryAttemptEnd lines s
  | .foreignStart => Sys2Proof.Machine.execForeignStart s
  | .foreignStop => Sys2Proof.Machine.execForeignStop s
  | .lineActivity change => Sys2Proof.Machine.execLineActivity change s
  | .millisecondBoundary => Sys2Proof.Machine.execMillisecondBoundary s
  | .addressAttemptNack => Sys2Proof.Machine.execAddressAttemptNack s
  | .clockStretchStart => Sys2Proof.Machine.execClockStretchStart s
  | .clockStretchEnd => Sys2Proof.Machine.execClockStretchEnd s
  | .statusByteShiftedOut p => Sys2Proof.Machine.execStatusByteShiftedOut p s
  | .ncsRiseInIdle p => Sys2Proof.Machine.execNcsRiseInIdle p s

end Sys2Proof.Machine
end

