-- ==== Sys2Proof/Safety.lean ====
section
/-! DEFINITION. The laws that the manual gives the device as a whole, as predicates on its state; and what chapters 8 and 10
say of a command as it arrives: the standing it needs and the ranges of its arguments, written from the tables. -/

namespace Sys2Proof.Machine

open Sys2Proof

/-! ## The laws -/

/-- No two entries of a notice queue coalesce: at most one per subject of the kinds that do (R138). -/
def distinctSubjects (q : List Notice) : Prop := q.Pairwise fun a b => a.coalesces b = false

/-- The law of the notice block for one queue (R134, R138, R140): at most 15 entries other than OVERFLOW, an OVERFLOW entry
only as the last entry and with a lost count from 1 to 255, and at most one entry per subject. -/
def queueLaw (q : List Notice) : Prop :=
  ∃ front last, q = front ++ last ∧ front.length ≤ Config.noticeRoom ∧ (∀ n ∈ front, n.isOverflow = false)
    ∧ (last = [] ∨ ∃ c, last = [.overflow c] ∧ 1 ≤ c ∧ c ≤ Config.countMax) ∧ distinctSubjects q

/-- The law of the notice block (R134, R136, R138, R145): every queue keeps its law, and a DETACHED port's queue is empty and
its mask the default. -/
def State.noticeLaw (s : State) : Prop :=
  ∀ p, queueLaw (s.noticePort p).queue ∧ ((s.port p).attached = false → s.noticePort p = NoticePort.fresh)

/-- The law of the locks for one target (R93): no port waits twice, the holder does not wait, and without a holder nobody
waits. -/
def Target.lockLaw (x : Target) : Prop :=
  (x.waiters.map Waiter.port).Nodup ∧ (∀ h, x.lock = some h → x.awaits h.port = false) ∧ (x.lock = none → x.waiters = [])

/-- The law of the locks (R93). -/
def State.lockLaw (s : State) : Prop := ∀ t x, s.target t = some x → x.lockLaw

/-- Table 6-2: the engine state that goes with each monitor state. HUNG is left in the event that enters it (R117). -/
def State.engineAgrees (s : State) : Prop :=
  match s.monitor.state with
  | .unknown | .foreign | .faulted => s.engine = .idle
  | .free => s.engine = .idle ∨ ∃ t, s.engine = .transfer t ∧ t.stretch = none
  | .owned => ∃ t, s.engine = .transfer t
  | .recovering => ∃ b, s.engine = .recovery b
  | .hung => False

/-- The law of the bus monitor (R113, R115, R129, R130, R131, R132): its state agrees with the engine's; both lines are high in
FREE; the BUS FAULT flag is set through FAULTED and its retry attempts alone, where the count stands at 3 or more; the count
is 0 outside RECOVERING and FAULTED, and at most 255; and each timer runs only where its rule sets it. -/
def State.busLaw (s : State) : Prop :=
  s.engineAgrees
    ∧ (s.monitor.state = .free → s.monitor.lines = linesHigh)
    ∧ (s.monitor.busFault = true → s.monitor.state = .faulted ∨ s.monitor.state = .recovering)
    ∧ (s.monitor.state = .faulted → s.monitor.busFault = true)
    ∧ (s.monitor.busFault = true ↔ Config.faultAttempts ≤ s.monitor.failed)
    ∧ (s.monitor.failed ≠ 0 → s.monitor.state = .faulted ∨ s.monitor.state = .recovering)
    ∧ s.monitor.failed ≤ Config.countMax
    ∧ (s.monitor.hang.isSome → s.monitor.state = .unknown ∨ s.monitor.state = .foreign ∨ s.engine = .recovery false)
    ∧ (s.monitor.idle.isSome → s.monitor.state = .unknown ∧ bothHigh s.monitor.lines = true)
    ∧ (s.monitor.retry.isSome ↔ s.monitor.state = .faulted)

/-- Whether a request stands in its owner's request list: QUEUED, or ACTIVE and no orphan (R6). -/
def Request.listed (r : Request) : Bool := r.state == .queued || (r.state == .active && !r.orphan)

/-- The law of the slot pool (R1, R6, R18, R22, R30): a port's request list holds exactly its QUEUED slots and its ACTIVE slot,
each once; only an ACTIVE slot is an orphan or carries abort-pending; and a slot is ACTIVE exactly while the engine performs
its transfer. -/
def State.poolLaw (s : State) : Prop :=
  (∀ p, (s.list p).Nodup)
    ∧ (∀ p n, n ∈ s.list p ↔ ∃ r, s.request n = some r ∧ r.owner = p ∧ r.listed = true)
    ∧ (∀ n r, s.request n = some r → r.orphan = true ∨ r.abortPending = true → r.state = .active)
    ∧ (∀ n, (∃ r, s.request n = some r ∧ r.state = .active) ↔ ∃ t, s.engine = .transfer t ∧ t.work = .request n)

/-- The law of the quota (R8): the shared slots in use never exceed 16. -/
def State.quotaLaw (s : State) : Prop := s.sharedInUse ≤ Config.sharedSlots

/-- The law of a target's health (R83, Table 4-5): the count is 0 when ONLINE and from 1 to below the threshold when SUSPECT,
and there is a probe due time exactly when QUARANTINED; a probe timer runs or a probe pends only then. -/
def Target.healthLaw (x : Target) : Prop :=
  1 ≤ x.threshold ∧ x.failures ≤ Config.countMax
    ∧ (x.health = .online → x.failures = 0)
    ∧ (x.health = .suspect → 1 ≤ x.failures ∧ x.failures < x.threshold)
    ∧ (x.health = .quarantined ↔ x.probeDue.isSome = true)
    ∧ (x.health ≠ .quarantined → x.probeTimer = none ∧ x.probe = none)

/-- The law of the target table (R83). -/
def State.healthLaw (s : State) : Prop := ∀ t x, s.target t = some x → x.healthLaw

/-- The law of a mirror entry in use (R47, R48, R50, R57, R65, R67): at least one sponsor; a value in VALID and STALE, none in
PRIMING; the stale timer runs exactly in VALID; and a FAILED entry has no due time, no due timer and no poll due. -/
def MirrorUse.law (u : MirrorUse) : Prop :=
  (∃ p, (u.sponsors.get p).isSome = true)
    ∧ (u.state = .priming → u.value = none)
    ∧ (u.state = .valid ∨ u.state = .stale → u.value.isSome = true)
    ∧ (u.staleTimer.isSome = true ↔ u.state = .valid)
    ∧ (u.state = .failed → u.nextDue = none ∧ u.dueTimer = none ∧ u.pending = none ∧ u.dueAfterRun = none)

/-- The law of the mirror table's entries (R47, R50). -/
def State.mirrorLaw (s : State) : Prop := ∀ e u, s.entryUse e = some u → u.law

/-- The law of the two tables together (R49, R67, R75): no two declared targets share an address, no two entries in use have
equal keys, and an entry's target is declared and is QUARANTINED exactly when the entry is FAILED. -/
def State.tableLaw (s : State) : Prop :=
  (∀ t t' x x', s.target t = some x → s.target t' = some x' → x.addr = x'.addr → t = t')
    ∧ (∀ e e' u u', s.entryUse e = some u → s.entryUse e' = some u' → u.key = u'.key → e = e')
    ∧ (∀ e u, s.entryUse e = some u →
        ∃ x, s.targetAt u.key.addr = some x ∧ (u.state = .failed ↔ x.health = .quarantined))

/-- What a DETACHED port holds (R160): no slot but an ACTIVE orphan, no lock, no place in a wait list, no sponsorship and no
notice. -/
def State.holdsNothing (s : State) (p : Port) : Prop :=
  (∀ n r, s.request n = some r → r.owner = p → r.state = .active ∧ r.orphan = true)
    ∧ (∀ t x, s.target t = some x → (∀ h, x.lock = some h → h.port ≠ p) ∧ x.awaits p = false)
    ∧ (∀ e u, s.entryUse e = some u → (u.sponsors.get p).isNone = true)
    ∧ s.noticePort p = NoticePort.fresh

/-- The law of the sessions (R160): holdings belong to ATTACHED ports alone, an orphan excepted. -/
def State.sessionLaw (s : State) : Prop := ∀ p, (s.port p).attached = false → s.holdsNothing p

/-- The sizes of Tables 0-3, 1-5 and 1-6 for one request: at most 32 bytes to write, to read, done and read. -/
def Request.sizeLaw (r : Request) : Prop :=
  r.desc.data.length ≤ Config.dataMax ∧ r.desc.readLen ≤ Config.dataMax
    ∧ ∀ res, r.state = .done res → res.data.length ≤ Config.dataMax ∧ res.bytesDone ≤ Config.dataMax

/-- The sizes of the records that a response carries (Tables 0-3, 1-5, 3-3): results of at most 32 bytes, mirror values of at
most 16, and so for the poll that the engine runs. -/
def State.sizeLaw (s : State) : Prop :=
  (∀ n r, s.request n = some r → r.sizeLaw)
    ∧ (∀ e u, s.entryUse e = some u →
        u.key.len ≤ Config.mirrorValueMax ∧ ∀ v, u.value = some v → v.bytes.length ≤ Config.mirrorValueMax)
    ∧ (∀ t e i k m, s.engine = .transfer t → t.work = .poll e i k m → k.len ≤ Config.mirrorValueMax)

/-- The values that a reset gives every block (Table 9-3; R24, R46, R73, R92, R109, R133, R146, R164, R168), the monitor's
timers and the levels of the lines apart. -/
def State.atResetValues (s : State) : Prop :=
  s.params = Params.default ∧ s.now = 0
    ∧ (∀ n, s.slot n = ⟨0#8, none⟩) ∧ (∀ p, s.list p = []) ∧ (∀ e, s.entry e = ⟨0#8, none⟩) ∧ (∀ t, s.target t = none)
    ∧ s.pointers = ⟨.maintenance, .maintenance, .maintenance⟩ ∧ s.engine = .idle
    ∧ s.monitor.state = .unknown ∧ s.monitor.failed = 0 ∧ s.monitor.busFault = false
    ∧ (∀ p, s.noticePort p = ⟨[], 0x7F#8⟩)
    ∧ ∀ p, (s.port p).attached = false ∧ (s.port p).generation = 0#8 ∧ (s.port p).frame = .idle
        ∧ (s.port p).statusOut = none ∧ (s.port p).response = none ∧ (s.port p).buffer = none
        ∧ (s.port p).frameAbandoned = false ∧ (s.port p).checkError = false ∧ (s.port p).resetPending = false

/-- The monitor's timers as a running device starts after a reset: with both lines high the idle confirmation timer of 1 ms
runs, with a line low the hang timer, for the hang limit of 25 ms (R114, R133). -/
def Monitor.startsReading (m : Monitor) (lines : Lines) : Prop :=
  m.lines = lines ∧ m.retry = none
    ∧ (lines = ⟨true, true⟩ → m.idle = some ⟨0, 1⟩ ∧ m.hang = none)
    ∧ (lines ≠ ⟨true, true⟩ → m.idle = none ∧ m.hang = some ⟨0, 25⟩)

/-! ## What a command needs as it arrives -/

/-- The supervisor-only commands (R167). -/
def supervisorOnly : Instr → Bool
  | .declareTarget _ _ | .removeTarget _ _ | .clearQuarantine _ _ | .forceUnlock _ _ | .setParameter _ _ _ | .evictPort _ _
  | .busReset _ | .resetPart _ => true
  | _ => false

/-- The commands that need a session: all but the six of R154; a header that executes nothing is no command. -/
def needsSession : Instr → Bool
  | .submit _ _ | .cancel _ _ | .fetch _ _ _ | .readNotice _ | .setNoticeMask _ _ | .lock _ _ _ _ | .renew _ _
  | .unlock _ _ | .mirrorDefine _ _ _ _ _ | .mirrorDrop _ _ | .mirrorFind _ _ | .mirrorRead _ _ | .targetQuery _ _ => true
  | c => supervisorOnly c

/-- Whether a byte is no target address: outside 08h to 77h (R75). -/
def noAddress (b : Byte) : Bool := decide (b < 0x08#8 ∨ 0x77#8 < b)

/-- Whether a key as sent lies outside the ranges of R51. -/
def badKey (k : KeyArgs) : Bool :=
  noAddress k.addr || decide (3 < k.indexLen.toNat ∨ k.len.toNat = 0 ∨ 16 < k.len.toNat)

/-- Whether a descriptor as sent fails the checks of R5 (Tables 1-7 and 10-4). The read length is bits 5 to 0 of its byte. -/
def badDescriptor (a : SubmitArgs) : Bool :=
  let read := (a.readLen &&& 0x3F#8).toNat
  let release := a.control.getLsbD 5
  noAddress a.addr || a.control &&& 0x0C#8 == 0x0C#8
    || (if a.control &&& 0x03#8 = 0#8 then
          decide (a.indexLength + a.writeLength = 0 ∨ 32 < a.writeLength ∨ read ≠ 0)
        else if a.control &&& 0x03#8 = 1#8 then
          decide (a.indexLength ≠ 0 ∨ a.writeLength ≠ 0 ∨ read = 0 ∨ 32 < read) || release
        else if a.control &&& 0x03#8 = 2#8 then
          decide (a.indexLength = 0 ∨ a.writeLength ≠ 0 ∨ read = 0 ∨ 32 < read) || release
        else decide (a.indexLength ≠ 0 ∨ a.writeLength ≠ 0 ∨ read ≠ 0))

/-- Whether a DECLARE TARGET's arguments as sent lie outside the ranges of R76; code 0 stands for a default in three fields
(R178). -/
def badDeclaration (d : DeclareArgs) : Bool :=
  noAddress d.addr || decide (2 < d.speed.toNat ∨ 100 < d.stretch.toNat ∨ 15 < d.threshold.toNat
    ∨ (d.probeInterval ≠ 0#16 ∧ (d.probeInterval.toNat < 10 ∨ 10000 < d.probeInterval.toNat)))

/-- Whether a parameter's value as sent lies outside the range of Table 9-1, coded as in Table 10-15; or the identifier names
no parameter; or an admitted-ports set lacks the supervisor port (R169, R170). -/
def badParameter (supervisor : Port) (ident : Byte) (v : Half) : Bool :=
  match ident.toNat with
  | 1 => decide (v.toNat ≠ 100 ∧ v.toNat ≠ 400 ∧ v.toNat ≠ 1000)
  | 2 => decide (3 < v.toNat)
  | 3 => decide (v.toNat < 1 ∨ 15 < v.toNat)
  | 4 => decide (1000 < v.toNat)
  | 5 => decide (2 < v.toNat)
  | 6 => decide (v.toNat < 2 ∨ 15 < v.toNat)
  | 7 => decide (v.toNat < 5 ∨ 100 < v.toNat)
  | 8 => decide (v.toNat < 100 ∨ 10000 < v.toNat)
  | 9 => decide (v.toNat < 10 ∨ 10000 < v.toNat)
  | 10 => !v.getLsbD supervisor.index.val
  | _ => true

/-- Whether a command's arguments as sent fail check 5 of the refusal precedence (R154). -/
def badArguments (s : State) : Instr → Bool
  | .getParameter _ i => decide (i.toNat < 1 ∨ 10 < i.toNat)
  | .submit _ a => badDescriptor a
  | .setNoticeMask _ m => decide (0x7F#8 < m)
  | .lock _ a l _ => noAddress a || decide (l = 0#16)
  | .renew _ a | .unlock _ a | .targetQuery _ a | .removeTarget _ a | .clearQuarantine _ a | .forceUnlock _ a => noAddress a
  | .mirrorDefine _ k t _ _ => badKey k || decide (t.toNat < 5 ∨ 60000 < t.toNat)
  | .mirrorDrop _ e | .mirrorRead _ e => decide (23 < e.toNat)
  | .mirrorFind _ k => badKey k
  | .declareTarget _ d => badDeclaration d
  | .setParameter _ i v => badParameter s.supervisor i v
  | .evictPort _ n => decide (3 < n.toNat) || portNumber s.supervisor == n
  | _ => false

/-- What the fields of a declaration as sent say of a target's record: the speed cap by its code, the stretch limit, the
threshold and the probe interval with code 0 for their defaults, and the port sets (R76, R178, Table 10-3). -/
def Target.declaredAs (x : Target) (d : DeclareArgs) : Prop :=
  (d.speed = 0x00#8 → x.speed = .khz100) ∧ (d.speed = 0x01#8 → x.speed = .khz400) ∧ (d.speed = 0x02#8 → x.speed = .khz1000)
    ∧ x.stretchLimit = (if d.stretch = 0#8 then 10 else d.stretch.toNat)
    ∧ x.threshold = (if d.threshold = 0#8 then 4 else d.threshold.toNat)
    ∧ x.probeInterval = (if d.probeInterval = 0#16 then 500 else d.probeInterval.toNat)
    ∧ x.readSet = d.readSet.setWidth 4 ∧ x.writeSet = d.writeSet.setWidth 4

/-- Whether a class mark calls for a promotion: aging is on, the class is below URGENT, and the mark is as old as the aging
limit (R40). -/
def State.callsForPromotion (s : State) (c : WorkClass) (mark : Nat) : Bool :=
  decide (s.params.agingLimit ≠ 0 ∧ c ≠ .urgent ∧ mark + s.params.agingLimit ≤ s.now)

/-- The class one step up (R40). -/
def WorkClass.above : WorkClass → WorkClass
  | .bulk => .normal
  | .normal | .urgent => .urgent

/-- The monitor's record in FREE and in FOREIGN: no attempt counted, no fault, and of its timers the hang timer alone, in
FOREIGN (R113, R115, R116, R132). -/
def Monitor.inFree : Monitor := ⟨.free, 0, false, none, none, none, ⟨true, true⟩⟩
def Monitor.inForeign (now limit : Nat) (lines : Lines) : Monitor := ⟨.foreign, 0, false, some ⟨now, limit⟩, none, none, lines⟩

/-- The device with the monitor gone to FREE, or to FOREIGN on a change that leaves the lines at the given levels: where the
BUS FAULT flag was set, every ATTACHED port is offered BUS STATE carrying RESTORED (R132). -/
def State.madeFree (s : State) : State :=
  let moved := { s with monitor := .inFree }
  if s.monitor.busFault then moved.offerTo (.busState .restored) (Port.all.filter fun p => (s.port p).attached) else moved
def State.madeForeign (s : State) (lines : Lines) : State :=
  let moved := { s with monitor := .inForeign s.now s.params.hangLimit lines }
  if s.monitor.busFault then moved.offerTo (.busState .restored) (Port.all.filter fun p => (s.port p).attached) else moved

/-- The monitor's record as a recovery attempt begins: its timers are stopped (R117, R125, R131). -/
def Monitor.inAttempt (m : Monitor) (failed : Nat) : Monitor :=
  ⟨.recovering, failed, m.busFault, none, none, none, m.lines⟩

/-- The attached ports that are in a target's read set or write set (R87). -/
def State.hears (s : State) (x : Target) : List Port :=
  Port.all.filter fun p => (s.port p).attached && (x.readSet.getLsbD p.index.val || x.writeSet.getLsbD p.index.val)

/-- The notifying sponsors of an entry (R62). -/
def MirrorUse.hearers (u : MirrorUse) : List Port := Port.all.filter fun p => (u.sponsors.get p).any fun sp => sp.notify

/-- MIRROR STATE with the state told, offered for each entry of which one is told to that entry's notifying sponsors, by rising
entry number (R66, R67, R68; the order of the entries is notes/assumptions/26.md). -/
def State.tellOf (s : State) (told : EntryId → Option (MirrorUse × MirrorState)) : State :=
  (List.finRange 24).foldl (fun z e =>
    match told e with
    | none => z
    | some (u, m) => z.offerTo (.mirrorState e m) u.hearers) s

/-- The device with another sponsor set in an entry in use: the due time is recomputed, and on a change of the effective period
the stale limit is re-evaluated (R50, R56, R66). -/
def State.withSponsors (s : State) (e : EntryId) (u : MirrorUse) (sponsors : PerPort (Option Sponsor)) : State :=
  let changed : MirrorUse := { u with sponsors := sponsors }
  let due := (s.setEntry e ⟨(s.entry e).issue, some changed⟩).recomputeDue e
  if changed.period = u.period then due else due.recheckStale e

/-- M's order of items with one due time: probes before polls, and each by rising number (R39). -/
def Work.precedes : Work → Work → Prop
  | .probe t _ _, .probe u _ _ => t < u
  | .probe _ _ _, .poll _ _ _ _ => True
  | .poll e _ _ _, .poll d _ _ _ => e < d
  | _, _ => False

/-- Whether the abort-pending flag of the transfer's request stood set at the START of the attempt under way, and stands so:
it is then honoured at the attempt's first acknowledged boundary (R126). -/
def State.flagged (s : State) (f : Transfer) : Prop :=
  f.flagAtStart = true ∧ ∃ n r, f.work = .request n ∧ s.request n = some r ∧ r.abortPending = true

/-- A request as a promotion would leave it now, where its class mark calls for one; and a maintenance record so (R40). -/
def Request.promotedIfDue (r : Request) (s : State) : Request :=
  if s.callsForPromotion r.cls r.mark then { r with cls := r.cls.above, mark := s.now } else r
def Maint.promotedIfDue (m : Maint) (s : State) : Maint :=
  if s.callsForPromotion m.cls m.mark then { m with cls := m.cls.above, mark := s.now } else m

end Sys2Proof.Machine
end

