-- ==== Sys2Proof/Certificates/Slice0/Obligations.lean ====
section
/-! DEFINITION. The statements for the provers. Each one's docstring names the rules it rests on. In all of them a command or
an event meets any state, one that no run reaches included; `s.takesHeader p` says that the device is not held in reset and
that a frame is open on the port, in HEADER. -/

open Sys2Proof Sys2Proof.Machine

/-! ## The step, the header and the frame -/

/-- The step takes the command in front of the queue and runs it with the queue's rest; with an empty queue it idles (the
model's choice, notes/assumptions/2.md). -/
def Obligations.StepTakesTheCommandInFront : Prop :=
  (∀ (c : Instr) (rest : List Instr) (s : State),
      step { s with pending := c :: rest } = exec c { s with pending := rest })
    ∧ ∀ s : State, s.pending = [] → step s = .next s

/-- Every command that a host can send and every event is answered with a next state: nothing that can be executed is refused.
Only a term that is no header (the model's refusal, notes/assumptions/4.md) is. The queue of the commands that wait is the
model's own, and so is the clause that no command and no event changes it, the resets included (notes/assumptions/2.md). -/
def Obligations.EveryCommandIsAnswered : Prop :=
  ∀ (c : Instr) (s : State),
    (c.wellFormed = true → ∃ t, exec c s = .next t ∧ t.pending = s.pending)
      ∧ (c.wellFormed = false → exec c s = .refused .illFormed)

/-- Decoding undoes encoding: the header of a command reads as that command, whatever bytes follow the check byte, and no
proper part of it completes a header (R147, R150, R151, R181). -/
def Obligations.HeadersReadAsTheirCommand : Prop :=
  ∀ (i : Instr) (p : Port) (bytes extra : List Byte),
    i.wellFormed = true → headerPort i = some p → encodeHeader i = some bytes →
      decodeHeader p (bytes ++ extra) = some i ∧ ∀ k, k < bytes.length → decodeHeader p (bytes.take k) = none

/-- A header whose check byte disagrees reads as a failed check and executes nothing: the answer is CHECK ERROR, the flag is
set and the last-response buffer is kept (R151, R156). A code that names no command takes no arguments, and its header is
answered UNKNOWN COMMAND (R150, R154). -/
def Obligations.HeadersThatExecuteNothing : Prop :=
  (∀ (p : Port) (bytes : List Byte) (n : Nat) (c : Byte),
      bodyLength bytes = some n → bytes[n]? = some c → c ≠ crc8 (bytes.take n) →
        decodeHeader p bytes = some (.checkError p))
    ∧ (∀ (s : State) (p : Port), s.takesHeader p = true →
        ∃ t, exec (.checkError p) s = .next t ∧ t = { s with ports := t.ports } ∧ (∀ q, q ≠ p → t.port q = s.port q)
          ∧ t.port p = { s.port p with
              frame := .response, response := some [0x01#8, 0x80#8, crc8 [0x01#8, 0x80#8]], checkError := true })
    ∧ (∀ (p : Port) (code : Byte) (extra : List Byte), commandCodes.contains code = false →
        decodeHeader p (code :: crc8 [code] :: extra) = some (.unknownCommand p code))
    ∧ ∀ (s : State) (p : Port) (code : Byte), s.takesHeader p = true → commandCodes.contains code = false →
        exec (.unknownCommand p code) s = .next (s.respond p ⟨.unknownCommand, []⟩)

/-- A falling nCSn in IDLE opens a frame with the port status byte as it stands at that edge, which the port then shows, and
changes nothing else (R147, R148, R179, Table 10-1). -/
def Obligations.FrameOpensWithTheStatusByte : Prop :=
  ∀ (s : State) (p : Port), s.inReset = false → (s.port p).frame = .idle → (s.port p).selected = false →
    ∃ b : Byte,
      let z := s.updPort p fun h => { h with frame := .header, selected := true, statusOut := some b, response := none }
      exec (.frameOpen p) s = .next z
      ∧ (∀ k, z.sdo p k = some b)
      ∧ b.getLsbD 7 = (s.port p).attached
      ∧ b.getLsbD 6 = ((s.port p).attached && !(s.noticePort p).queue.isEmpty)
      ∧ b.getLsbD 5 = (s.supervisor == p)
      ∧ b.getLsbD 4 = s.monitor.busFault
      ∧ b.getLsbD 3 = (s.port p).frameAbandoned
      ∧ b.getLsbD 2 = (s.port p).checkError
      ∧ b.getLsbD 1 = true ∧ b.getLsbD 0 = false

/-- The other frame events: a status byte shifted out in full clears the two frame flags (R148), and every byte after it in
the header reads FFh (R179); a rising nCSn in HEADER abandons the frame and sets FRAME ABANDONED, and one in RESPONSE ends it
without a flag (R149), and the port then shows no byte; one in IDLE, after a reset with nCSn low, ends nothing (R164). Each
bears on its own port alone and keeps the last-response buffer. -/
def Obligations.FrameEventsBearOnTheirPort : Prop :=
  ∀ (s : State) (p : Port), s.inReset = false →
    ((s.port p).frame = .header → (s.port p).statusOut.isSome = true →
        let z := s.updPort p fun h => { h with statusOut := none, frameAbandoned := false, checkError := false }
        exec (.statusByteShiftedOut p) s = .next z ∧ ∀ k, z.sdo p k = some 0xFF#8)
      ∧ ((s.port p).frame = .header →
        let z := s.updPort p fun h =>
          { h with frame := .idle, selected := false, statusOut := none, response := none, frameAbandoned := true }
        exec (.frameAbandoned p) s = .next z ∧ ∀ k, z.sdo p k = none)
      ∧ ((s.port p).frame = .response → (s.port p).resetPending = false →
        let z := s.updPort p fun h => { h with frame := .idle, selected := false, statusOut := none, response := none }
        exec (.frameEnd p) s = .next z ∧ ∀ k, z.sdo p k = none)
      ∧ ((s.port p).frame = .idle →
        exec (.ncsRiseInIdle p) s = .next (s.updPort p fun h => { h with selected := false }))

/-- In the header-complete event the port goes to RESPONSE with its response formed, and the response is written into the
last-response buffer, but for REPEAT RESPONSE and a failed check, which leave the buffer (R152, R156). No other port's frame
is touched (R161). -/
def Obligations.ResponseIsFormedAndStored : Prop :=
  ∀ (c : Instr) (s : State) (p : Port), c.wellFormed = true → headerPort c = some p → s.takesHeader p = true →
    ∃ t bytes, exec c s = .next t ∧ (t.port p).frame = .response ∧ (t.port p).response = some bytes
      ∧ (c = .repeatResponse p ∨ c = .checkError p → (t.port p).buffer = (s.port p).buffer)
      ∧ (c ≠ .repeatResponse p → c ≠ .checkError p → (t.port p).buffer = some bytes)
      ∧ ∀ q, q ≠ p → t.port q = { s.port q with
          attached := (t.port q).attached, buffer := (t.port q).buffer }

/-- A response is a length byte that counts the bytes from the response code to the last data byte, the code, the data and a
check byte over them all; a refusal (80h and above, Table 10-6) carries no data, and no response carries more than 34 data
bytes; and the port shows the turnaround byte 00h, these bytes in their order, and FFh for every byte beyond them (R153,
R179). The records a response carries keep their sizes (`State.sizeLaw`, whose keeping is a statement of its own). -/
def Obligations.ResponseCountsItsBytes : Prop :=
  ∀ (c : Instr) (s t : State) (p : Port), s.sizeLaw → headerPort c = some p → s.takesHeader p = true →
    c ≠ .repeatResponse p → exec c s = .next t →
      ∃ (l code : Byte) (data : List Byte),
        (t.port p).response = some (l :: code :: data ++ [crc8 (l :: code :: data)])
          ∧ l.toNat = 1 + data.length ∧ data.length ≤ 34 ∧ (0x80#8 ≤ code → data = [])
          ∧ ∀ k, t.sdo p k = some (((0x00#8 :: l :: code :: data ++ [crc8 (l :: code :: data)])[k]?).getD 0xFF#8)

/-- What the device ignores. While a power-on reset or a low nRST holds it in reset, it takes no event but those that begin
and end a reset (R174, R175). Bytes that complete a header are ignored unless a frame is open in HEADER: in IDLE the port
ignores the clock, and in RESPONSE every byte (R147). -/
def Obligations.WhatTheDeviceIgnores : Prop :=
  (∀ (c : Instr) (s : State), s.inReset = true → c.wellFormed = true →
      c ≠ .powerOnReset → c ≠ .nrstLow → (∀ a l n, c ≠ .powerOnResetEnd a l n) → (∀ a l n, c ≠ .nrstRelease a l n) →
        exec c s = .next s)
    ∧ ∀ (c : Instr) (s : State) (p : Port), headerPort c = some p → c.wellFormed = true → (s.port p).frame ≠ .header →
        exec c s = .next s

/-! ## The common checks -/

/-- The standing of the port. A supervisor-only command from another port is answered NOT SUPERVISOR, attached or not; a
command that needs a session is answered NOT ATTACHED on a DETACHED port, the supervisor-only commands on the supervisor port
included; and nothing changes (R154, R167). -/
def Obligations.StandingIsCheckedInOrder : Prop :=
  ∀ (c : Instr) (s : State) (p : Port), headerPort c = some p → c.wellFormed = true → s.takesHeader p = true →
    (supervisorOnly c = true → s.supervisor ≠ p → exec c s = .next (s.respond p ⟨.notSupervisor, []⟩))
      ∧ (needsSession c = true → (supervisorOnly c = true → s.supervisor = p) → (s.port p).attached = false →
          exec c s = .next (s.respond p ⟨.notAttached, []⟩))

/-- The argument ranges: a command that passes the checks before is answered BAD ARGUMENT exactly when an argument lies
outside its range, and then changes nothing (R154 check 5; R5, R51, R54, R75, R76, R94, R137, R169, R170, R171, R172). REPEAT
RESPONSE, which takes no argument and may repeat such an answer, is set apart. -/
def Obligations.ArgumentsOutsideTheirRanges : Prop :=
  ∀ (c : Instr) (s : State) (p : Port), headerPort c = some p → c.wellFormed = true → s.takesHeader p = true →
    c ≠ .repeatResponse p →
    (supervisorOnly c = true → s.supervisor = p) → (needsSession c = true → (s.port p).attached = true) →
      (badArguments s c = true → exec c s = .next (s.respond p ⟨.badArgument, []⟩))
        ∧ (badArguments s c = false →
            ∀ t, exec c s = .next t → (t.port p).response ≠ some (Reply.plain .badArgument).bytes)

/-- INFO and STATUS are answered DONE on every port, report what stands, and change nothing else (R162, R163, Tables 10-9 and
10-10). -/
def Obligations.InfoAndStatusReport : Prop :=
  ∀ (s : State) (p : Port), s.takesHeader p = true →
    (∀ cause : List Byte,
        (s.cause = .powerOn → cause = [0x01#8, 0xFF#8]) → (s.cause = .resetPin → cause = [0x02#8, 0xFF#8]) →
        (∀ q, s.cause = .resetCommand q → cause = [0x03#8, portNumber q]) →
        exec (.info p) s = .next (s.respond p
          ⟨.done, [0x26#8, 0x04#8, 0x01#8, 0x30#8, 0x18#8, 0x20#8, 0x10#8, portNumber s.supervisor] ++ cause⟩))
      ∧ ∃ a b c d : Byte, (a ++ b ++ c ++ d : BitVec 32) = BitVec.ofNat 32 s.now
        ∧ exec (.status p) s = .next (s.respond p
          ⟨.done, [(s.port p).generation, BitVec.ofNat 8 (s.tally p), BitVec.ofNat 8 (s.queuedCount p),
            BitVec.ofNat 8 (s.noticePort p).queue.length, s.monitor.state.byte, a, b, c, d]⟩)

/-- REPEAT RESPONSE shifts out, after the turnaround byte, the stored response byte for byte, or EMPTY with no data; it needs
no session, executes nothing again and keeps the buffer: nothing but the port's frame changes (R157). -/
def Obligations.RepeatResponseReturnsTheBuffer : Prop :=
  ∀ (s : State) (p : Port), s.takesHeader p = true →
    ∃ (bytes : List Byte) (t : State), exec (.repeatResponse p) s = .next t
      ∧ t = s.updPort p (fun h => { h with frame := .response, response := some bytes })
      ∧ (∀ k, t.sdo p k = some (((0x00#8 :: bytes)[k]?).getD 0xFF#8))
      ∧ ((s.port p).buffer = none → bytes = [0x01#8, 0x09#8, crc8 [0x01#8, 0x09#8]])
      ∧ ∀ b, (s.port p).buffer = some b → bytes = b

/-- GET PARAMETER, on every port and in every session state: an identifier that names none of the ten parameters is refused
with BAD ARGUMENT; otherwise the answer is DONE with the identifier and the value the store holds. No state changes (R171). -/
def Obligations.GetParameterReadsTheStore : Prop :=
  ∀ (s : State) (p : Port) (ident : Byte), s.takesHeader p = true →
    (ident.toNat = 0 ∨ 10 < ident.toNat →
        exec (.getParameter p ident) s = .next (s.respond p ⟨.badArgument, []⟩))
      ∧ ∀ v : Half,
          (ident = 0x01#8 ∧ v = BitVec.ofNat 16 s.params.busRate.khz
            ∨ ident = 0x02#8 ∧ v = BitVec.ofNat 16 s.params.addressRetries
            ∨ ident = 0x03#8 ∧ v = BitVec.ofNat 16 s.params.lossLimit
            ∨ ident = 0x04#8 ∧ v = BitVec.ofNat 16 s.params.agingLimit
            ∨ ident = 0x05#8 ∧ v = BitVec.ofNat 16 s.params.maintenanceClass.code
            ∨ ident = 0x06#8 ∧ v = BitVec.ofNat 16 s.params.staleMultiple
            ∨ ident = 0x07#8 ∧ v = BitVec.ofNat 16 s.params.hangLimit
            ∨ ident = 0x08#8 ∧ v = BitVec.ofNat 16 s.params.faultRetry
            ∨ ident = 0x09#8 ∧ v = BitVec.ofNat 16 s.params.maxLease
            ∨ ident = 0x0A#8 ∧ v = s.params.admitted.setWidth 16) →
          exec (.getParameter p ident) s = .next (s.respond p ⟨.done, ident :: Half.bytes v⟩)

/-! ## Sessions -/

/-- ATTACH on a DETACHED port: refused with PORT DISABLED outside the admitted ports, with nothing changed; otherwise the
generation advances, from 255 to 1, the port becomes ATTACHED, and DONE carries the new generation. No other block and no
other port changes (R158, R159, R170). -/
def Obligations.AttachOpensASession : Prop :=
  ∀ (s : State) (p : Port), s.takesHeader p = true →
    (s.params.admitted.getLsbD p.index.val = false →
        exec (.attach p) s = .next (s.respond p ⟨.portDisabled, []⟩))
      ∧ (s.params.admitted.getLsbD p.index.val = true → (s.port p).attached = false → ∀ g : Byte,
          ((s.port p).generation = 0xFF#8 → g = 0x01#8) →
          ((s.port p).generation ≠ 0xFF#8 → g = (s.port p).generation + 1) →
          exec (.attach p) s = .next ((s.updPort p fun h =>
            { h with attached := true, generation := g }).respond p ⟨.done, [g]⟩))

/-- The end of a session gives up every holding of the port in one event, whether by DETACH, by ATTACH on an attached port or
by EVICT PORT: afterwards the port owns no slot but an ACTIVE orphan, holds no lock, waits in no list, sponsors no entry and
has an empty notice queue with the default mask; the generation is kept, or advanced by the new session, and the command's
own response stands in the buffer of the port that sent it, while an evicted port's buffer is empty and its frame untouched
(R22, R72, R106, R145, R156, R159, R160, R161, R172). The premise is the law of the locks, whose keeping is a statement of
its own. -/
def Obligations.SessionEndGivesUpEveryHolding : Prop :=
  ∀ (s : State) (p : Port), s.lockLaw → s.takesHeader p = true → (s.port p).attached = true →
    (∃ t, exec (.detach p) s = .next t ∧ t.holdsNothing p
        ∧ (t.port p).attached = false ∧ (t.port p).generation = (s.port p).generation
        ∧ (t.port p).buffer = some (Reply.plain .done).bytes)
      ∧ (s.params.admitted.getLsbD p.index.val = true → ∃ t g, exec (.attach p) s = .next t ∧ t.holdsNothing p
        ∧ (t.port p).attached = true ∧ (t.port p).generation = g
        ∧ ((s.port p).generation = 0xFF#8 → g = 0x01#8)
        ∧ ((s.port p).generation ≠ 0xFF#8 → g = (s.port p).generation + 1)
        ∧ (t.port p).buffer = some (Reply.bytes ⟨.done, [g]⟩))
      ∧ ∀ q, s.supervisor = p → q ≠ p → (s.port q).attached = true →
        ∃ t, exec (.evictPort p (BitVec.ofNat 8 q.index.val)) s = .next t ∧ t.holdsNothing q
          ∧ t.port q = { s.port q with attached := false, buffer := none }
          ∧ (t.port p).buffer = some (Reply.plain .done).bytes

/-- Every slot of the port is seen to by the end of its session, whether by DETACH, by ATTACH on an attached port or by EVICT
PORT: QUEUED and DONE slots are FREE afterwards and the ACTIVE one is an orphan, its abort-pending flag kept; a slot of
another port that is not QUEUED stays as it was (R22, R159, R160, R172). On a DETACHED port DETACH and EVICT PORT are
answered DONE and change nothing (R160, R172). -/
def Obligations.SessionEndSeesToEverySlot : Prop :=
  (∀ (s : State) (p : Port) (n : SlotId) (r : Request), s.takesHeader p = true → (s.port p).attached = true →
      s.request n = some r →
        let seen := fun (q : Port) (t : State) =>
          (r.owner = q → r.state ≠ .active → t.request n = none)
            ∧ (r.owner = q → r.state = .active → t.request n = some { r with orphan := true })
            ∧ (r.owner ≠ q → r.state ≠ .queued → t.request n = some r)
        (∃ t, exec (.detach p) s = .next t ∧ seen p t)
          ∧ (s.params.admitted.getLsbD p.index.val = true → ∃ t, exec (.attach p) s = .next t ∧ seen p t)
          ∧ ∀ q, s.supervisor = p → q ≠ p → (s.port q).attached = true →
              ∃ t, exec (.evictPort p (BitVec.ofNat 8 q.index.val)) s = .next t ∧ seen q t)
    ∧ (∀ (s : State) (p : Port), s.takesHeader p = true → (s.port p).attached = false →
        exec (.detach p) s = .next (s.respond p ⟨.done, []⟩))
    ∧ ∀ (s : State) (p q : Port), s.takesHeader p = true → s.supervisor = p → (s.port p).attached = true → q ≠ p →
        (s.port q).attached = false →
          exec (.evictPort p (BitVec.ofNat 8 q.index.val)) s = .next (s.respond p ⟨.done, []⟩)

/-! ## The slot pool -/

/-- The law of the pool in numbers: the FREE slots and the four tallies make 48 (R1); under the law of the quota no tally
exceeds 24, and when the quota check passes a FREE slot exists (R8). -/
def Obligations.PoolAddsUp : Prop :=
  (∀ s : State, s.freeSlots + (s.tally .h0 + s.tally .h1 + s.tally .h2 + s.tally .h3) = 48)
    ∧ ∀ (s : State) (p : Port), s.quotaLaw →
        s.tally p ≤ 24 ∧ (s.tally p < 8 ∨ s.sharedInUse < 16 → ∃ n, s.request n = none)

/-- SUBMIT, refused by the first condition of Table 1-9 that holds, changes nothing (R10). -/
def Obligations.SubmitIsRefusedInOrder : Prop :=
  ∀ (s : State) (p : Port) (a : SubmitArgs) (k : Kind), s.takesHeader p = true → (s.port p).attached = true →
    Instr.wellFormed (.submit p a) = true → badDescriptor a = false →
    (a.control &&& 0x03#8 = 0#8 → k = .write) → (a.control &&& 0x03#8 = 1#8 → k = .read) →
    (a.control &&& 0x03#8 = 2#8 → k = .indexedRead) → (a.control &&& 0x03#8 = 3#8 → k = .probe) →
      (s.monitor.state = .faulted → exec (.submit p a) s = .next (s.respond p ⟨.busFault, []⟩))
        ∧ (s.monitor.state ≠ .faulted →
            (s.targetAt a.addr = none → exec (.submit p a) s = .next (s.respond p ⟨.unknownTarget, []⟩))
              ∧ ∀ x, s.targetAt a.addr = some x →
                  let read := x.readSet.getLsbD p.index.val
                  let write := x.writeSet.getLsbD p.index.val
                  let access := (k = .read ∨ write = true) ∧ (k = .write ∨ k = .probe ∨ read = true)
                  (¬ access → exec (.submit p a) s = .next (s.respond p ⟨.notPermitted, []⟩))
                    ∧ (access → x.health = .quarantined → k ≠ .probe →
                        exec (.submit p a) s = .next (s.respond p ⟨.quarantined, []⟩))
                    ∧ (access → (x.health ≠ .quarantined ∨ k = .probe) → 8 ≤ s.tally p → 16 ≤ s.sharedInUse →
                        exec (.submit p a) s = .next (s.respond p ⟨.quotaExhausted, []⟩)))

/-- SUBMIT, accepted: the lowest-numbered FREE slot takes the request, its issue number advanced, with the record of Table 1-5
written from the descriptor, at the tail of the port's request list; the dispatcher re-evaluates; and ACCEPTED carries the
ticket (R3, R4, R11, Tables 10-4 and 10-5). -/
def Obligations.SubmitIsAccepted : Prop :=
  ∀ (s : State) (p : Port) (a : SubmitArgs) (d : Descriptor) (x : Target) (n : SlotId),
    s.takesHeader p = true → (s.port p).attached = true → Instr.wellFormed (.submit p a) = true →
    badDescriptor a = false →
    (a.control &&& 0x03#8 = 0#8 → d.kind = .write) → (a.control &&& 0x03#8 = 1#8 → d.kind = .read) →
    (a.control &&& 0x03#8 = 2#8 → d.kind = .indexedRead) → (a.control &&& 0x03#8 = 3#8 → d.kind = .probe) →
    (a.control &&& 0x0C#8 = 0x00#8 → d.cls = .urgent) → (a.control &&& 0x0C#8 = 0x04#8 → d.cls = .normal) →
    (a.control &&& 0x0C#8 = 0x08#8 → d.cls = .bulk) →
    d.target = a.addr → a.tail = d.index ++ d.data → d.index.length = a.indexLength →
    d.readLen = (a.readLen &&& 0x3F#8).toNat →
    d.notify = a.control.getLsbD 4 → d.autoRelease = a.control.getLsbD 5 → d.underLock = a.control.getLsbD 6 →
    d.fence = a.control.getLsbD 7 →
    s.monitor.state ≠ .faulted → s.targetAt a.addr = some x →
    (d.kind = .read ∨ x.writeSet.getLsbD p.index.val = true) →
    (d.kind = .write ∨ d.kind = .probe ∨ x.readSet.getLsbD p.index.val = true) →
    (x.health ≠ .quarantined ∨ d.kind = .probe) → (s.tally p < 8 ∨ s.sharedInUse < 16) →
    s.request n = none → (∀ m, m < n → s.request m ≠ none) →
      ∃ (q : State) (ticket : Half),
        exec (.submit p a) s = .next (q.settle.respond p ⟨.accepted, Half.bytes ticket⟩)
          ∧ ticket.toNat = p.index.val * 16384 + n.val * 256 + (q.slot n).issue.toNat
          ∧ q.slot n = ⟨(s.slot n).issue + 1, some
              { state := .queued, owner := p, generation := (s.port p).generation, orphan := false, desc := d
                cls := d.cls, mark := s.now, attempts := 0, losses := 0, abortPending := false }⟩
          ∧ q.list p = s.list p ++ [n]
          ∧ (∀ m, m ≠ n → q.slot m = s.slot m) ∧ (∀ r, r ≠ p → q.list r = s.list r)
          ∧ q = { s with slots := q.slots, lists := q.lists }

/-- The ticket test: a ticket presented on a port names a slot exactly when its port field is that port, its slot number
is that of a slot in use that the port owns, of the port's current session, and its issue number is the slot's (R9, Table
10-5). That these five tests are all, so that once an 8-bit generation or issue number has wrapped, or a reset has
started both again (R24), a ticket of an ended session, or of a slot since freed and allocated again, can pass, an
orphan's included, is the model's choice (notes/assumptions/32.md). A ticket that names none is answered UNKNOWN TICKET,
and nothing changes. -/
def Obligations.TicketTest : Prop :=
  (∀ (s : State) (p : Port) (ticket : Half) (n : SlotId) (r : Request),
      s.ticketSlot p ticket = some (n, r) ↔
        ticket.toNat = p.index.val * 16384 + n.val * 256 + (s.slot n).issue.toNat ∧ s.request n = some r ∧ r.owner = p
          ∧ r.generation = (s.port p).generation)
    ∧ ∀ (s : State) (p : Port) (ticket : Half) (flags : Byte), s.takesHeader p = true → (s.port p).attached = true →
        s.ticketSlot p ticket = none →
          exec (.cancel p ticket) s = .next (s.respond p ⟨.unknownTicket, []⟩)
            ∧ exec (.fetch p ticket flags) s = .next (s.respond p ⟨.unknownTicket, []⟩)

/-- CANCEL by the slot's state (Table 1-13): QUEUED, the slot is freed with no result and no notice, the dispatcher
re-evaluates, and the answer is CANCELLED; ACTIVE, the abort-pending flag stands set and the answer is ABORTING; DONE, nothing
changes and the answer is TOO LATE (R18, R21). -/
def Obligations.CancelBySlotState : Prop :=
  ∀ (s : State) (p : Port) (ticket : Half) (n : SlotId) (r : Request), s.takesHeader p = true →
    (s.port p).attached = true → s.ticketSlot p ticket = some (n, r) →
      (r.state = .queued → ∃ q : State,
          exec (.cancel p ticket) s = .next (q.settle.respond p ⟨.cancelled, []⟩)
            ∧ q = { s with slots := q.slots, lists := q.lists }
            ∧ q.slot n = ⟨(s.slot n).issue, none⟩ ∧ (∀ m, m ≠ n → q.slot m = s.slot m)
            ∧ q.list r.owner = (s.list r.owner).filter (· != n) ∧ (∀ o, o ≠ r.owner → q.list o = s.list o))
        ∧ (r.state = .active → exec (.cancel p ticket) s
            = .next ((s.setSlot n ⟨(s.slot n).issue, some { r with abortPending := true }⟩).respond p ⟨.aborting, []⟩))
        ∧ ∀ res, r.state = .done res → exec (.cancel p ticket) s = .next (s.respond p ⟨.tooLate, []⟩)

/-- FETCH by the slot's state: DONE answers the result record, and frees the slot unless the keep flag is set; QUEUED and
ACTIVE answer NOT DONE with the state, and change nothing (R20, R21, Tables 10-7 and 10-8). -/
def Obligations.FetchBySlotState : Prop :=
  ∀ (s : State) (p : Port) (ticket : Half) (flags : Byte) (n : SlotId) (r : Request), s.takesHeader p = true →
    (s.port p).attached = true → s.ticketSlot p ticket = some (n, r) →
      (r.state = .queued → exec (.fetch p ticket flags) s = .next (s.respond p ⟨.notDone, [0x01#8]⟩))
        ∧ (r.state = .active → exec (.fetch p ticket flags) s = .next (s.respond p ⟨.notDone, [0x02#8]⟩))
        ∧ ∀ res, r.state = .done res →
            (flags.getLsbD 0 = true → exec (.fetch p ticket flags) s
                = .next (s.respond p ⟨.done, [res.outcome.byte, BitVec.ofNat 8 res.bytesDone] ++ res.data⟩))
              ∧ (flags.getLsbD 0 = false → ∃ q : State, exec (.fetch p ticket flags) s
                = .next (q.respond p ⟨.done, [res.outcome.byte, BitVec.ofNat 8 res.bytesDone] ++ res.data⟩)
                  ∧ q = { s with slots := q.slots, lists := q.lists }
                  ∧ q.slot n = ⟨(s.slot n).issue, none⟩ ∧ (∀ m, m ≠ n → q.slot m = s.slot m)
                  ∧ ∀ o, q.list o = if o = r.owner then (s.list o).filter (· != n) else s.list o)

/-! ## The notice block -/

/-- An offer acts on the port's queue by the first of the five steps that applies, and keeps the law of the queue (R138, R136,
R140). Two notices coalesce exactly when they are MIRROR CHANGED, or MIRROR STATE, for one entry, TARGET STATE for one target,
or BUS STATE (R139). -/
def Obligations.OfferActsByTheFirstStep : Prop :=
  (∀ a b : Notice, a.coalesces b = true ↔
    (∃ e x y, a = .mirrorChanged e x ∧ b = .mirrorChanged e y) ∨ (∃ e x y, a = .mirrorState e x ∧ b = .mirrorState e y)
      ∨ (∃ t h c h' c', a = .targetState t h c ∧ b = .targetState t h' c') ∨ ∃ x y, a = .busState x ∧ b = .busState y)
  ∧ ∀ (s : State) (n : Notice) (p : Port), n.isOverflow = false →
    let q := (s.noticePort p).queue
    let m := (s.noticePort p).mask
    let recorded := (s.port p).attached = true ∧ m.getLsbD (n.kindCode.toNat - 1) = true
    (¬ recorded → s.offer n p = s)
      ∧ (recorded → (∃ a ∈ q, a.coalesces n = true) →
          s.offer n p = s.setNoticePort p ⟨q.map fun a => if a.coalesces n then n else a, m⟩)
      ∧ (recorded → (∀ a ∈ q, a.coalesces n = false) →
          (∀ front c, q = front ++ [.overflow c] → (∀ a ∈ front, a.isOverflow = false) →
            s.offer n p = s.setNoticePort p ⟨front ++ [.overflow (min (c + 1) 255)], m⟩)
          ∧ ((∀ a ∈ q, a.isOverflow = false) → 15 ≤ q.length → s.offer n p = s.setNoticePort p ⟨q ++ [.overflow 1], m⟩)
          ∧ ((∀ a ∈ q, a.isOverflow = false) → q.length < 15 → s.offer n p = s.setNoticePort p ⟨q ++ [n], m⟩))
      ∧ (queueLaw q → queueLaw ((s.offer n p).noticePort p).queue)

/-- READ NOTICE needs a session. From a queue that holds an entry, the head is removed and returned with its kind and arguments
and the number of entries that remain, 0 to 15; an OVERFLOW entry, always last, leaves the queue empty. From an empty queue
the answer is EMPTY, and nothing changes (R142). SET NOTICE MASK: a mask that names no kind outside the seven becomes the
port's mask, and DONE carries it; the entries in the queue stay (R136, R137, section 10.8). -/
def Obligations.ReadNoticeRemovesTheHead : Prop :=
  ∀ (s : State) (p : Port), s.takesHeader p = true →
    ((s.port p).attached = false → exec (.readNotice p) s = .next (s.respond p ⟨.notAttached, []⟩))
      ∧ ((s.port p).attached = true →
          ((s.noticePort p).queue = [] → exec (.readNotice p) s = .next (s.respond p ⟨.empty, []⟩))
            ∧ (∀ n rest, (s.noticePort p).queue = n :: rest →
                exec (.readNotice p) s = .next ((s.setNoticePort p ⟨rest, (s.noticePort p).mask⟩).respond p
                  ⟨.done, BitVec.ofNat 8 rest.length :: n.record⟩)
                ∧ (queueLaw (s.noticePort p).queue → rest.length ≤ 15 ∧ (n.isOverflow = true → rest = [])))
            ∧ ∀ m : Byte, m.getLsbD 7 = false →
                exec (.setNoticeMask p m) s
                  = .next ((s.setNoticePort p ⟨(s.noticePort p).queue, m⟩).respond p ⟨.done, [m]⟩))

/-! ## Locks -/

/-- LOCK, by the conditions of Table 5-2 in their order (R94, R95, R96): the lease granted is the one asked for, clamped to
the maximum lock lease as it stands; a grant is followed by the dispatcher's re-evaluation; a waiter joins at the tail with
its lease as received. -/
def Obligations.LockByItsConditionsInOrder : Prop :=
  ∀ (s : State) (p : Port) (addr : Byte) (lease : Half) (flags : Byte), s.takesHeader p = true →
    (s.port p).attached = true → noAddress addr = false → lease ≠ 0#16 →
      (s.targetAt addr = none → exec (.lock p addr lease flags) s = .next (s.respond p ⟨.unknownTarget, []⟩))
        ∧ ∀ t x, s.lookup addr = some (t, x) →
            let access := x.readSet.getLsbD p.index.val = true ∨ x.writeSet.getLsbD p.index.val = true
            let holds := ∃ h, x.lock = some h ∧ h.port = p
            let granted := min lease.toNat s.params.maxLease
            (¬ access → exec (.lock p addr lease flags) s = .next (s.respond p ⟨.notPermitted, []⟩))
              ∧ (access → holds → exec (.lock p addr lease flags) s = .next (s.respond p ⟨.alreadyHeld, []⟩))
              ∧ (access → ¬ holds → x.awaits p = true →
                  exec (.lock p addr lease flags) s = .next (s.respond p ⟨.alreadyWaiting, []⟩))
              ∧ (access → x.awaits p = false →
                  (x.lock = none → exec (.lock p addr lease flags) s
                      = .next ((s.setTarget t (some { x with lock := some ⟨p, ⟨s.now, granted⟩⟩ })).settle.respond p
                          ⟨.granted, Half.bytes (BitVec.ofNat 16 granted)⟩))
                    ∧ ∀ h, x.lock = some h → h.port ≠ p →
                        (flags.getLsbD 0 = true → exec (.lock p addr lease flags) s
                            = .next ((s.setTarget t (some { x with waiters := x.waiters ++ [⟨p, lease.toNat⟩] })).respond p
                                ⟨.waiting, [BitVec.ofNat 8 (x.waiters.length + 1)]⟩))
                          ∧ (flags.getLsbD 0 = false →
                              exec (.lock p addr lease flags) s = .next (s.respond p ⟨.held h.port, []⟩)))

/-- RENEW by the holder: the lease becomes the smaller of the one held and the maximum as it stands, and runs from now;
from any other port NOT HOLDER, and nothing changes (R97, R108). UNLOCK by a waiter removes its wait entry and leaves the
holder and the lease; by a port with no standing it is answered NOT HOLDER (R98). FORCE UNLOCK of a target without a
holder is answered DONE, naming no port (R100). For an address that is not declared all three are answered UNKNOWN
TARGET, and nothing changes (R97, R98, R100). -/
def Obligations.RenewAndUnlockByStanding : Prop :=
  ∀ (s : State) (p : Port) (addr : Byte), s.takesHeader p = true → (s.port p).attached = true → noAddress addr = false →
    (s.targetAt addr = none → exec (.renew p addr) s = .next (s.respond p ⟨.unknownTarget, []⟩)
        ∧ exec (.unlock p addr) s = .next (s.respond p ⟨.unknownTarget, []⟩)
        ∧ (s.supervisor = p → exec (.forceUnlock p addr) s = .next (s.respond p ⟨.unknownTarget, []⟩)))
      ∧ ∀ t x, s.lookup addr = some (t, x) →
          (∀ h, x.lock = some h → h.port = p →
            let length := min h.lease.length s.params.maxLease
            exec (.renew p addr) s
              = .next ((s.setTarget t (some { x with lock := some ⟨p, ⟨s.now, length⟩⟩ })).respond p
                  ⟨.granted, Half.bytes (BitVec.ofNat 16 length)⟩))
            ∧ ((∀ h, x.lock = some h → h.port ≠ p) →
                exec (.renew p addr) s = .next (s.respond p ⟨.notHolder, []⟩)
                  ∧ (x.awaits p = true → exec (.unlock p addr) s
                      = .next ((s.setTarget t (some { x with waiters := x.waiters.filter fun w => w.port != p })).respond p
                          ⟨.done, []⟩))
                  ∧ (x.awaits p = false → exec (.unlock p addr) s = .next (s.respond p ⟨.notHolder, []⟩)))
            ∧ (s.supervisor = p → x.lock = none →
                exec (.forceUnlock p addr) s = .next (s.respond p ⟨.done, [0xFF#8]⟩))

/-- The release of a lock, by UNLOCK, by the expiry of its lease or by FORCE UNLOCK, in the order of R101: the lock ends; the
former holder's QUEUED UNDER LOCK slots to the target complete LOCK LOST, oldest first; expiry and FORCE UNLOCK offer LOCK
ENDED with their cause to the former holder, and UNLOCK offers none; the oldest waiter becomes the holder, its lease clamped
to the maximum as it stands, and is offered LOCK GRANTED; and the dispatcher re-evaluates. The answer names the former holder
where FORCE UNLOCK asks. No other target's lock record changes, and no slot that is not QUEUED does (R98 to R102, R104,
R105). The place of the re-evaluation at the end of the event is the model's inference (notes/assumptions/7.md). -/
def Obligations.ReleasePassesTheLock : Prop :=
  ∀ (s : State) (t : TargetId) (x : Target) (h : Hold) (p : Port) (addr : Byte),
    s.lookup addr = some (t, x) → x.lock = some h →
      let released := fun z : State =>
        (∃ y, z.target t = some y ∧ y.waiters = x.waiters.tail
            ∧ y.lock = x.waiters.head?.map fun w => ⟨w.port, ⟨s.now, min w.lease s.params.maxLease⟩⟩)
          ∧ (∀ u y, u ≠ t → s.target u = some y → ∃ y', z.target u = some y' ∧ y'.lock = y.lock ∧ y'.waiters = y.waiters)
          ∧ (∀ n r, s.request n = some r → r.state ≠ .queued → z.request n = some r)
          ∧ ∀ n r, n ∈ s.list h.port → s.request n = some r → r.state = .queued → r.desc.underLock = true →
              r.desc.target = x.addr → r.orphan = false →
                z.request n = if r.desc.autoRelease then none
                  else some { r with state := .done ⟨.lockLost, 0, []⟩, abortPending := false }
      let unlocked := (s.list h.port).filter (fun n => (s.request n).any fun r =>
          r.state == .queued && r.desc.underLock && r.desc.target == addr) |>.foldl
        (fun z n => z.completeSlot n ⟨.lockLost, 0, []⟩) (s.setTarget t (some { x with lock := none, waiters := [] }))
      let told := fun cause : Option LockEnd => match cause with
        | none => unlocked
        | some c => unlocked.offer (.lockEnded addr c) h.port
      (s.takesHeader p = true → (s.port p).attached = true → noAddress addr = false → h.port = p →
          exec (.unlock p addr) s = .next ((s.release t p none).settle.respond p ⟨.done, []⟩)
            ∧ released (s.release t p none).settle)
        ∧ (s.inReset = false → h.lease.setAt + h.lease.length ≤ s.now →
          exec (.lockLeaseExpiry t) s = .next (s.release t h.port (some .expired)).settle
            ∧ released (s.release t h.port (some .expired)).settle)
        ∧ (s.takesHeader p = true → (s.port p).attached = true → noAddress addr = false → s.supervisor = p →
          exec (.forceUnlock p addr) s
              = .next ((s.release t h.port (some .forced)).settle.respond p ⟨.done, [portNumber h.port]⟩)
            ∧ released (s.release t h.port (some .forced)).settle)
        ∧ (x.waiters = [] → ∀ cause, s.release t h.port cause = told cause)
        ∧ ∀ w ws, x.waiters = w :: ws → ∀ cause,
            let granted := min w.lease s.params.maxLease
            s.release t h.port cause
              = ((told cause).setTarget t (some { x with lock := some ⟨w.port, ⟨s.now, granted⟩⟩, waiters := ws })).offer
                  (.lockGranted addr granted) w.port

/-! ## The mirror table -/

/-- MIRROR DEFINE, refused or taking a new entry, by the conditions of Table 3-4 in their order: the lowest-numbered FREE
entry is taken, its issue number advanced, with the port as its one sponsor; PRIMING with its poll due now, or FAILED with
none when the target is QUARANTINED (R49, R51, R53). -/
def Obligations.MirrorDefineTakesAnEntry : Prop :=
  ∀ (s : State) (p : Port) (ka : KeyArgs) (period : Half) (flags : Byte) (mask : Half), s.takesHeader p = true →
    (s.port p).attached = true → badArguments s (.mirrorDefine p ka period flags mask) = false →
      let k : Key := ⟨ka.addr, [ka.index1, ka.index2, ka.index3].take ka.indexLen.toNat, ka.len.toNat⟩
      (s.targetAt ka.addr = none →
          exec (.mirrorDefine p ka period flags mask) s = .next (s.respond p ⟨.unknownTarget, []⟩))
        ∧ ∀ x, s.targetAt ka.addr = some x →
            (x.readSet.getLsbD p.index.val = false →
              exec (.mirrorDefine p ka period flags mask) s = .next (s.respond p ⟨.notPermitted, []⟩))
            ∧ (x.readSet.getLsbD p.index.val = true → (∀ e u, s.entryUse e = some u → u.key ≠ k) →
                ((∀ e, s.entryUse e ≠ none) →
                    exec (.mirrorDefine p ka period flags mask) s = .next (s.respond p ⟨.tableFull, []⟩))
                  ∧ ∀ e, s.entryUse e = none → (∀ d, d < e → s.entryUse d ≠ none) →
                      exec (.mirrorDefine p ka period flags mask) s
                        = .next ((s.setEntry e ⟨(s.entry e).issue + 1, some
                            { key := k
                              sponsors := (PerPort.same none).set p (some ⟨period.toNat, flags.getLsbD 0, mask⟩)
                              state := if x.health = .quarantined then .failed else .priming
                              nextDue := none, lastStart := none, value := none, seqNo := 0#16, lastOutcome := none
                              dueTimer := none, staleTimer := none
                              pending := if x.health = .quarantined then none
                                else some ⟨s.params.maintenanceClass, s.now, 0, s.now, false⟩
                              dueAfterRun := none }⟩).settle.respond p ⟨.done, [BitVec.ofNat 8 e.val]⟩))

/-- MIRROR DEFINE on an equal key joins the entry: the port's sponsor record is added or replaced, the due time and the
stale limit follow the effective period (R56, R66), and the dispatcher re-evaluates; key, value, sequence number, last
poll outcome and issue number stay; only a VALID entry may change its state, to STALE, and no other entry's sponsors
change (R52). MIRROR DROP of one of several sponsors removes the port's record in the same way, and of the last frees the
entry, which keeps its issue number; from a port that is no sponsor it is answered NOT SPONSOR, and of a FREE entry NOT
FOUND (R54). The end of a session by DETACH, ATTACH or EVICT PORT removes the port's record in the same way from every
entry that keeps another sponsor (R72). That a join may take a VALID entry to STALE with MIRROR STATE is the model's
choice (notes/assumptions/28.md); what the change of sponsors does to the due time where the rules are silent, and that a
period left as it was re-evaluates nothing, are its inferences (notes/assumptions/13.md, 14.md and 15.md) and its choices
(notes/assumptions/30.md and 35.md). -/
def Obligations.SponsorsJoinAndLeave : Prop :=
  (∀ (s : State) (p : Port) (ka : KeyArgs) (period : Half) (flags : Byte) (mask : Half) (x : Target) (e : EntryId)
      (u : MirrorUse), s.takesHeader p = true → (s.port p).attached = true →
      badArguments s (.mirrorDefine p ka period flags mask) = false → s.targetAt ka.addr = some x →
      x.readSet.getLsbD p.index.val = true → s.entryUse e = some u → (∀ d, d < e → ∀ v, s.entryUse d = some v →
        v.key ≠ u.key) →
      u.key = ⟨ka.addr, [ka.index1, ka.index2, ka.index3].take ka.indexLen.toNat, ka.len.toNat⟩ →
        let z := (s.withSponsors e u (u.sponsors.set p (some ⟨period.toNat, flags.getLsbD 0, mask⟩))).settle
        ∃ v : MirrorUse,
          exec (.mirrorDefine p ka period flags mask) s = .next (z.respond p ⟨.done, [BitVec.ofNat 8 e.val]⟩)
          ∧ z.entryUse e = some v ∧ v.sponsors = u.sponsors.set p (some ⟨period.toNat, flags.getLsbD 0, mask⟩)
          ∧ v.key = u.key ∧ v.value = u.value ∧ v.seqNo = u.seqNo ∧ v.lastOutcome = u.lastOutcome
          ∧ (z.entry e).issue = (s.entry e).issue ∧ (v.state = u.state ∨ u.state = .valid ∧ v.state = .stale)
          ∧ ∀ d w, d ≠ e → s.entryUse d = some w → ∃ w', z.entryUse d = some w' ∧ w'.sponsors = w.sponsors)
    ∧ (∀ (s : State) (p : Port) (b : Byte) (e : EntryId), s.takesHeader p = true → (s.port p).attached = true →
        b.toNat = e.val →
          (s.entryUse e = none → exec (.mirrorDrop p b) s = .next (s.respond p ⟨.notFound, []⟩))
            ∧ ∀ u, s.entryUse e = some u →
                (u.sponsors.get p = none → exec (.mirrorDrop p b) s = .next (s.respond p ⟨.notSponsor, []⟩))
                  ∧ (u.sponsors.get p ≠ none →
                      ((∀ q, q ≠ p → u.sponsors.get q = none) →
                          exec (.mirrorDrop p b) s
                            = .next ((s.setEntry e ⟨(s.entry e).issue, none⟩).settle.respond p ⟨.done, []⟩))
                        ∧ ((∃ q, q ≠ p ∧ u.sponsors.get q ≠ none) →
                          let z := (s.withSponsors e u (u.sponsors.set p none)).settle
                          ∃ v : MirrorUse, exec (.mirrorDrop p b) s = .next (z.respond p ⟨.done, []⟩)
                            ∧ z.entryUse e = some v ∧ v.sponsors = u.sponsors.set p none
                            ∧ v.key = u.key ∧ v.value = u.value ∧ v.seqNo = u.seqNo
                            ∧ (v.state = u.state ∨ u.state = .valid ∧ v.state = .stale))))
    ∧ ∀ (s : State) (p q : Port) (e : EntryId) (u : MirrorUse), s.takesHeader p = true → (s.port p).attached = true →
        (s.port q).attached = true → s.entryUse e = some u → u.sponsors.get q ≠ none →
        (∃ r, r ≠ q ∧ u.sponsors.get r ≠ none) →
          let left := (s.withSponsors e u (u.sponsors.set q none)).entryUse e
          (q = p → ∃ z : State, exec (.detach p) s = .next (z.settle.respond p ⟨.done, []⟩) ∧ z.entryUse e = left)
            ∧ (q = p → s.params.admitted.getLsbD p.index.val = true → ∃ (z : State) (g : Byte),
                exec (.attach p) s = .next (z.settle.respond p ⟨.done, [g]⟩) ∧ z.entryUse e = left)
            ∧ (q ≠ p → s.supervisor = p → ∃ z : State,
                exec (.evictPort p (BitVec.ofNat 8 q.index.val)) s = .next (z.settle.respond p ⟨.done, []⟩)
                  ∧ z.entryUse e = left)

/-- The effective period of an entry that has a sponsor is the least period among its sponsor records (R50). A change of
the sponsor set acts on the due time by Table 3-5: nothing while FAILED, while a poll pends or before the first start;
otherwise the next due time becomes the last poll start plus the effective period, and a poll whose time has passed falls
due now, or with the end of the poll that runs (R56, R57). That a due time equal to the present has passed, and that a
poll requeued after a loss counts as pending, are the model's inferences (notes/assumptions/13.md and 14.md). That a due
time moved into the future while the poll runs takes the place of an expiry of the due timer during that run (the clause
`dueAfterRun := none`) is the model's choice (notes/assumptions/30.md), and so is that the poll that runs is known as the
entry's by its 8-bit issue number alone (notes/assumptions/35.md). -/
def Obligations.DueTimeFollowsThePeriod : Prop :=
  (∀ (u : MirrorUse), (∃ p, u.sponsors.get p ≠ none) →
      (∃ p sp, u.sponsors.get p = some sp ∧ sp.period = u.period)
        ∧ ∀ p sp, u.sponsors.get p = some sp → u.period ≤ sp.period)
    ∧ ∀ (s : State) (e : EntryId) (u : MirrorUse), s.entryUse e = some u →
      (u.state = .failed ∨ u.pending ≠ none ∨ u.lastStart = none → s.recomputeDue e = s)
      ∧ ∀ start, u.state ≠ .failed → u.pending = none → u.lastStart = some start →
          (s.now < start + u.period → s.recomputeDue e = s.setEntry e ⟨(s.entry e).issue, some
            { u with nextDue := some (start + u.period), dueTimer := some ⟨start, u.period⟩, dueAfterRun := none }⟩)
          ∧ (start + u.period ≤ s.now → s.pollRunning e = false → s.recomputeDue e
              = s.setEntry e ⟨(s.entry e).issue, some
                { u with
                  nextDue := some (start + u.period), dueTimer := none
                  pending := some ⟨s.params.maintenanceClass, s.now, 0, s.now, false⟩ }⟩)
          ∧ (start + u.period ≤ s.now → s.pollRunning e = true → s.recomputeDue e
              = s.setEntry e ⟨(s.entry e).issue, some
                { u with
                  nextDue := some (start + u.period), dueTimer := none, dueAfterRun := some (start + u.period) }⟩)

/-- MIRROR FIND, MIRROR READ and TARGET QUERY answer from the tables and change nothing but the port's frame and buffer (R55,
R70, R71, R81, Tables 10-11 and 10-12): a value's age is its boundaries passed, up to 65535, which an absent value shows
too. -/
def Obligations.QueriesReadTheTables : Prop :=
  (∀ (s : State) (p : Port) (ka : KeyArgs), s.takesHeader p = true → (s.port p).attached = true → badKey ka = false →
      let k : Key := ⟨ka.addr, [ka.index1, ka.index2, ka.index3].take ka.indexLen.toNat, ka.len.toNat⟩
      (s.targetAt ka.addr = none → exec (.mirrorFind p ka) s = .next (s.respond p ⟨.unknownTarget, []⟩))
        ∧ ∀ x, s.targetAt ka.addr = some x →
            (x.readSet.getLsbD p.index.val = false →
                exec (.mirrorFind p ka) s = .next (s.respond p ⟨.notPermitted, []⟩))
              ∧ (x.readSet.getLsbD p.index.val = true →
                  ((∀ e u, s.entryUse e = some u → u.key ≠ k) →
                      exec (.mirrorFind p ka) s = .next (s.respond p ⟨.notFound, []⟩))
                    ∧ ∀ e u, s.entryUse e = some u → u.key = k → (∀ d, d < e → ∀ v, s.entryUse d = some v → v.key ≠ k) →
                        exec (.mirrorFind p ka) s = .next (s.respond p ⟨.done, [BitVec.ofNat 8 e.val]⟩)))
    ∧ (∀ (s : State) (p : Port) (b : Byte) (e : EntryId), s.takesHeader p = true → (s.port p).attached = true →
        b.toNat = e.val →
          (s.entryUse e = none → exec (.mirrorRead p b) s = .next (s.respond p ⟨.notFound, []⟩))
            ∧ ∀ u, s.entryUse e = some u →
                ((∀ x, s.targetAt u.key.addr = some x → x.readSet.getLsbD p.index.val = false) →
                    exec (.mirrorRead p b) s = .next (s.respond p ⟨.notPermitted, []⟩))
                  ∧ ∀ x, s.targetAt u.key.addr = some x → x.readSet.getLsbD p.index.val = true →
                      ∀ (age : Nat) (last : Byte) (bytes : List Byte),
                        (u.value = none → age = 65535 ∧ bytes = []) →
                        (∀ v, u.value = some v → age = min (s.now - v.time) 65535 ∧ bytes = v.bytes) →
                        (u.lastOutcome = none → last = 0xFF#8) → (∀ o, u.lastOutcome = some o → last = o.byte) →
                          exec (.mirrorRead p b) s = .next (s.respond p ⟨.done,
                            [u.state.byte] ++ Half.bytes u.seqNo ++ Half.bytes (BitVec.ofNat 16 age)
                              ++ [last, BitVec.ofNat 8 u.key.len] ++ bytes⟩))
    ∧ ∀ (s : State) (p : Port) (addr : Byte), s.takesHeader p = true → (s.port p).attached = true →
        noAddress addr = false →
          (s.targetAt addr = none → exec (.targetQuery p addr) s = .next (s.respond p ⟨.unknownTarget, []⟩))
            ∧ ∀ t x, s.lookup addr = some (t, x) → ∀ holder access : Byte,
                (x.lock = none → holder = 0xFF#8) → (∀ h, x.lock = some h → holder = portNumber h.port) →
                (∀ i, access.getLsbD i = (i == 0 && x.readSet.getLsbD p.index.val
                  || i == 1 && x.writeSet.getLsbD p.index.val)) →
                  exec (.targetQuery p addr) s = .next (s.respond p ⟨.done,
                    [BitVec.ofNat 8 t.val, x.health.byte, BitVec.ofNat 8 x.failures, holder,
                      BitVec.ofNat 8 x.waiters.length, access]⟩)

/-- The two timers of a mirror entry. The poll due timer, when its expiry has come, makes a poll due with that due time,
at the maintenance class and marked now, and the dispatcher re-evaluates; no second poll while one pends; and for an
entry whose poll runs it falls due as that poll ends (R38, R57). The stale timer takes a VALID entry to STALE and tells
the notifying sponsors (R65). That the poll that runs is known as the entry's by its 8-bit issue number alone, in the
clauses with `pollRunning`, is the model's choice (notes/assumptions/35.md). -/
def Obligations.MirrorTimersExpire : Prop :=
  ∀ (s : State) (e : EntryId) (u : MirrorUse) (tm : Timer), s.inReset = false → s.entryUse e = some u →
    tm.setAt + tm.length ≤ s.now →
      (u.dueTimer = some tm →
          (u.pending = none → s.pollRunning e = false → exec (.mirrorPollDue e) s
              = .next (s.setEntry e ⟨(s.entry e).issue, some { u with
                  dueTimer := none
                  pending := some ⟨s.params.maintenanceClass, s.now, 0, tm.setAt + tm.length, false⟩ }⟩).settle)
            ∧ (u.pending ≠ none → exec (.mirrorPollDue e) s
                = .next (s.setEntry e ⟨(s.entry e).issue, some { u with dueTimer := none }⟩))
            ∧ (u.pending = none → s.pollRunning e = true → exec (.mirrorPollDue e) s
                = .next (s.setEntry e ⟨(s.entry e).issue, some { u with
                    dueTimer := none, dueAfterRun := some (tm.setAt + tm.length) }⟩)))
        ∧ (u.state = .valid → u.staleTimer = some tm → exec (.staleLimitExpiry e) s
            = .next ((s.setEntry e ⟨(s.entry e).issue, some { u with state := .stale, staleTimer := none }⟩).offerTo
                (.mirrorState e .stale) (Port.all.filter fun p => (u.sponsors.get p).any fun sp => sp.notify)))

/-! ## The target table -/

/-- DECLARE TARGET of an address that is not declared takes the lowest-numbered FREE index, with the fields as sent, ONLINE
with count 0 and no probe, lock or waiter; with none FREE the answer is TABLE FULL (R76). REMOVE TARGET is refused with IN USE
while anything uses the target, and otherwise frees its entry and nothing else (R80). -/
def Obligations.DeclareAndRemoveTarget : Prop :=
  ∀ (s : State) (p : Port), s.takesHeader p = true → s.supervisor = p → (s.port p).attached = true →
    (∀ d : DeclareArgs, badDeclaration d = false → s.targetAt d.addr = none →
        ((∀ t, s.target t ≠ none) → exec (.declareTarget p d) s = .next (s.respond p ⟨.tableFull, []⟩))
          ∧ ∀ (t : TargetId) (x : Target), s.target t = none → (∀ u, u < t → s.target u ≠ none) →
              x.addr = d.addr → x.declaredAs d → x.health = .online → x.failures = 0 → x.probeDue = none →
              x.probeTimer = none → x.probe = none → x.lock = none → x.waiters = [] →
                exec (.declareTarget p d) s
                  = .next ((s.setTarget t (some x)).respond p ⟨.done, [BitVec.ofNat 8 t.val]⟩))
      ∧ ∀ addr : Byte, noAddress addr = false →
          (s.targetAt addr = none → exec (.removeTarget p addr) s = .next (s.respond p ⟨.unknownTarget, []⟩))
            ∧ ∀ (t : TargetId) (x : Target), s.lookup addr = some (t, x) →
                let used := (∃ n r, s.request n = some r ∧ (r.state = .queued ∨ r.state = .active) ∧ r.desc.target = addr)
                  ∨ (∃ f e i k m, s.engine = .transfer f ∧ f.work = .poll e i k m ∧ k.addr = addr)
                  ∨ (∃ f u m, s.engine = .transfer f ∧ f.work = .probe u addr m)
                  ∨ (∃ e u, s.entryUse e = some u ∧ u.key.addr = addr) ∨ x.lock ≠ none ∨ x.waiters ≠ []
                (used → exec (.removeTarget p addr) s = .next (s.respond p ⟨.inUse, []⟩))
                  ∧ (¬ used → exec (.removeTarget p addr) s = .next ((s.setTarget t none).respond p ⟨.done, []⟩))

/-- A redeclaration is refused with IN USE when a port that it would take out of a set holds something on the target, and
then changes nothing; otherwise the fields as sent are written at the same index, and health, count, probe schedule and
lock record stay; but a threshold at or below the count of a SUSPECT target starts quarantine in this event (R77, R78,
R79). That the NOT LOCKED completions of the event come after the onset's TARGET QUARANTINED ones is the model's
inference (notes/assumptions/7.md). That the onset acts on the record with its new port sets, so that its TARGET STATE
goes to the ports of those, is the model's choice (notes/assumptions/31.md). -/
def Obligations.RedeclarationKeepsHealthAndLock : Prop :=
  ∀ (s : State) (p : Port) (d : DeclareArgs) (t : TargetId) (x y : Target), s.takesHeader p = true → s.supervisor = p →
    (s.port p).attached = true → badDeclaration d = false → s.lookup d.addr = some (t, x) → y.declaredAs d →
    y = { x with
      speed := y.speed, stretchLimit := y.stretchLimit, threshold := y.threshold, probeInterval := y.probeInterval
      readSet := y.readSet, writeSet := y.writeSet } →
      let holds := fun q : Port =>
        (∃ n r, s.request n = some r ∧ r.owner = q ∧ (r.state = .queued ∨ r.state = .active) ∧ r.desc.target = d.addr)
          ∨ (∃ h, x.lock = some h ∧ h.port = q) ∨ x.awaits q = true
          ∨ ∃ e u, s.entryUse e = some u ∧ u.key.addr = d.addr ∧ u.sponsors.get q ≠ none
      let dropped := fun q : Port =>
        (x.readSet.getLsbD q.index.val = true ∧ y.readSet.getLsbD q.index.val = false)
          ∨ (x.writeSet.getLsbD q.index.val = true ∧ y.writeSet.getLsbD q.index.val = false)
      ((∃ q, dropped q ∧ holds q) → exec (.declareTarget p d) s = .next (s.respond p ⟨.inUse, []⟩))
        ∧ ((∀ q, dropped q → ¬ holds q) →
            (x.health ≠ .suspect ∨ x.failures < y.threshold → exec (.declareTarget p d) s
                = .next ((s.setTarget t (some y)).settle.respond p ⟨.done, [BitVec.ofNat 8 t.val]⟩))
              ∧ (x.health = .suspect → y.threshold ≤ x.failures → exec (.declareTarget p d) s
                = .next (((s.setTarget t (some y)).quarantineOnset t).settle.respond p ⟨.done, [BitVec.ofNat 8 t.val]⟩)))

/-- What quarantine onset does (R88, R67, R87): the target is QUARANTINED with its count and its lock record kept, and
its probe due time one probe interval away; its QUEUED slots that are no PROBE complete TARGET QUARANTINED, whoever owns
them, then the UNDER LOCK requests that have come due complete NOT LOCKED (R36), and every other slot stays; its mirror
entries are FAILED with no poll due, and every other entry stays; and nothing else changes but the notice queues. After
all the completions and their COMPLETED notices, MIRROR STATE (FAILED) goes to the notifying sponsors of each of those
entries, and then TARGET STATE to the attached ports of the target's sets. The order of the entries in one queue, by
rising number, and that the NOT LOCKED completions follow the others are the model's inferences (notes/assumptions/26.md
and 7.md). -/
def Obligations.QuarantineOnset : Prop :=
  ∀ (s : State) (t : TargetId) (x y : Target), s.target t = some x →
    y = { x with
      health := .quarantined, probeTimer := some ⟨s.now, x.probeInterval⟩, probeDue := some (s.now + x.probeInterval) } →
      let z := s.quarantineOnset t
      z = { s with slots := z.slots, lists := z.lists, entries := z.entries, targets := z.targets, notices := z.notices }
        ∧ z.target t = some y ∧ (∀ u, u ≠ t → z.target u = s.target u)
        ∧ (∀ n, (z.slot n).issue = (s.slot n).issue)
        ∧ (∀ n, s.request n = none → z.request n = none)
        ∧ (∀ n r, s.request n = some r → r.state ≠ .queued ∨ r.desc.target ≠ x.addr ∨ r.desc.kind = .probe →
            z.request n = some r
              ∨ r.state = .queued ∧ r.desc.underLock = true
                ∧ (∃ p, n ∈ s.list p ∧ ∀ v, s.targetAt r.desc.target = some v → v.lock = none ∧ v.awaits p = false)
                ∧ z.request n = if r.orphan || r.desc.autoRelease then none
                  else some { r with state := .done ⟨.notLocked, 0, []⟩, abortPending := false })
        ∧ (∀ p n r, n ∈ s.list p → s.request n = some r → r.state = .queued → r.desc.target = x.addr →
            r.desc.kind ≠ .probe → r.orphan = false →
              z.request n = if r.desc.autoRelease then none
                else some { r with state := .done ⟨.targetQuarantined, 0, []⟩, abortPending := false })
        ∧ (∀ e, z.entry e = ⟨(s.entry e).issue, (s.entryUse e).map fun u =>
            if u.key.addr = x.addr then
              { u with
                state := .failed, nextDue := none, dueTimer := none, staleTimer := none, pending := none, dueAfterRun := none }
            else u⟩)
        ∧ (let completed :=
              s.completeQueuedAll (fun r => r.desc.target == x.addr && r.desc.kind != .probe) .targetQuarantined
          z = (State.tellOf { completed.notLockedAll with entries := z.entries, targets := z.targets } fun e =>
                (s.entryUse e).bind fun u => if u.key.addr = x.addr then some (u, .failed) else none).offerTo
              (.targetState x.addr .quarantined x.failures) (s.hears x)
            ∧ ((∀ n r, s.request n = some r → r.state ≠ .queued ∨ r.desc.target ≠ x.addr ∨ r.desc.kind = .probe) →
                completed = s))

/-- CLEAR QUARANTINE by the target's health (R91), and what the end of a quarantine does (R90, R68, R87): the target is
ONLINE with count 0 and no probe left; its FAILED entries become STALE, or PRIMING without a value, with a poll due now;
and nothing else changes but the notice queues, and the UNDER LOCK requests that have come due in the event, which
complete NOT LOCKED (R36). After their COMPLETED notices, MIRROR STATE with the new state goes to the notifying sponsors
of each of those entries, and then TARGET STATE to the attached ports of the target's sets. The order of the entries in
one queue, by rising number, and the place of the NOT LOCKED completions, ahead of MIRROR STATE and TARGET STATE, are the
model's inferences (notes/assumptions/26.md and 7.md). -/
def Obligations.QuarantineEnd : Prop :=
  (∀ (s : State) (p : Port) (addr : Byte), s.takesHeader p = true → s.supervisor = p → (s.port p).attached = true →
      noAddress addr = false →
        (s.targetAt addr = none → exec (.clearQuarantine p addr) s = .next (s.respond p ⟨.unknownTarget, []⟩))
          ∧ ∀ t x, s.lookup addr = some (t, x) →
              (x.health = .quarantined →
                  exec (.clearQuarantine p addr) s = .next ((s.quarantineEnd t).settle.respond p ⟨.done, []⟩))
                ∧ (x.health = .suspect → exec (.clearQuarantine p addr) s
                    = .next ((s.setTarget t (some { x with health := .online, failures := 0 })).respond p ⟨.done, []⟩))
                ∧ (x.health = .online → exec (.clearQuarantine p addr) s = .next (s.respond p ⟨.done, []⟩)))
    ∧ ∀ (s : State) (t : TargetId) (x y : Target), s.target t = some x →
        y = { x with health := .online, failures := 0, probeDue := none, probeTimer := none, probe := none } →
          let z := s.quarantineEnd t
          z = { s with
              slots := z.slots, lists := z.lists, entries := z.entries, targets := z.targets, notices := z.notices }
            ∧ z.target t = some y ∧ (∀ u, u ≠ t → z.target u = s.target u)
            ∧ (∀ e, (∀ u, s.entryUse e = some u → u.key.addr ≠ x.addr ∨ u.state ≠ .failed) → z.entry e = s.entry e)
            ∧ (∀ e u, s.entryUse e = some u → u.key.addr = x.addr → u.state = .failed → u.pending = none →
                z.entry e = ⟨(s.entry e).issue, some { u with
                  state := if u.value = none then .priming else .stale
                  nextDue := none
                  pending := some ⟨s.params.maintenanceClass, s.now, 0, s.now, false⟩ }⟩)
            ∧ z = (State.tellOf { s.notLockedAll with entries := z.entries, targets := z.targets } fun e =>
                  (s.entryUse e).bind fun u =>
                    if u.key.addr = x.addr ∧ u.state = .failed then
                      some (u, if u.value = none then .priming else .stale)
                    else none).offerTo
                (.targetState x.addr .online 0) (s.hears x)

/-- Health accounting by the class of the completion (R84, R85, R86, Table 4-6): a failure advances the count, up to 255,
and starts quarantine at the threshold, or takes an ONLINE target to SUSPECT with TARGET STATE, after the NOT LOCKED
completions that have come due in the event and their COMPLETED notices (R36, R87); a success clears the count, and ends
a quarantine; a neutral completion changes nothing, and neither does one on an address that is not declared. The place of
the NOT LOCKED completions, ahead of TARGET STATE, is the model's inference (notes/assumptions/7.md). -/
def Obligations.HealthAccounting : Prop :=
  ∀ (s : State) (addr : Byte) (o : TransferOutcome) (acknowledged : Bool),
    let failure := o = .addressNack ∨ o = .stretchTimeout
    let success := o = .ok ∨ o = .dataNack ∨ o = .aborted ∧ acknowledged = true
    (s.targetAt addr = none ∨ o = .busContended ∨ o = .aborted ∧ acknowledged = false →
        s.account addr o acknowledged = s)
      ∧ ∀ t x, s.lookup addr = some (t, x) →
          (failure → ∀ n, n = min (x.failures + 1) 255 →
              (x.health = .quarantined ∨ x.health = .suspect ∧ n < x.threshold →
                  s.account addr o acknowledged = s.setTarget t (some { x with failures := n }))
                ∧ (x.health = .online → n < x.threshold → s.account addr o acknowledged
                    = (s.setTarget t (some { x with failures := n, health := .suspect })).notLockedAll.offerTo
                        (.targetState addr .suspect n) (s.hears x))
                ∧ (x.health ≠ .quarantined → x.threshold ≤ n → s.account addr o acknowledged
                    = (s.setTarget t (some { x with failures := n })).quarantineOnset t))
            ∧ (success →
                (x.health = .quarantined → s.account addr o acknowledged = s.quarantineEnd t)
                  ∧ (x.health ≠ .quarantined → s.account addr o acknowledged
                      = s.setTarget t (some { x with failures := 0, health := .online })))

/-- The internal probe's schedule (R89): when the probe due timer expires a probe becomes due, at the maintenance class and
marked now, and the probe due time stays; a probe that has completed on a target still QUARANTINED sets timer and due time one
probe interval from now, and one on a target that has left quarantine sets nothing. -/
def Obligations.ProbeSchedule : Prop :=
  (∀ (s : State) (t : TargetId) (x : Target) (tm : Timer), s.inReset = false → s.target t = some x →
      x.probeTimer = some tm → tm.setAt + tm.length ≤ s.now →
        (x.probe = none → exec (.probeDueExpiry t) s = .next (s.setTarget t (some { x with
            probeTimer := none
            probe := some ⟨s.params.maintenanceClass, s.now, 0, tm.setAt + tm.length, false⟩ })).settle)
          ∧ (x.probe ≠ none →
              exec (.probeDueExpiry t) s = .next (s.setTarget t (some { x with probeTimer := none })).settle))
    ∧ ∀ (s : State) (t : TargetId) (x : Target), s.target t = some x →
        (x.health = .quarantined → s.reschedule t = s.setTarget t (some { x with
            probeTimer := some ⟨s.now, x.probeInterval⟩, probeDue := some (s.now + x.probeInterval) }))
          ∧ (x.health ≠ .quarantined → s.reschedule t = s)

/-! ## The supervisor functions and the resets -/

/-- SET PARAMETER with a value in range (R169): a value equal to the one held changes nothing; another is stored, no other
parameter changes, and the owning rule of the aging limit, the maintenance class, the stale multiple and the hang limit acts
in the same event; DONE carries the identifier and the value in force. -/
def Obligations.SetParameterWritesTheStore : Prop :=
  ∀ (s : State) (p : Port) (ident : Byte) (v w : Half) (ps : Params), s.takesHeader p = true → s.supervisor = p →
    (s.port p).attached = true → badParameter p ident v = false →
    (ident = 0x01#8 ∧ (∃ r, r.khz = v.toNat ∧ ps = { s.params with busRate := r })
      ∨ ident = 0x02#8 ∧ ps = { s.params with addressRetries := v.toNat }
      ∨ ident = 0x03#8 ∧ ps = { s.params with lossLimit := v.toNat }
      ∨ ident = 0x04#8 ∧ ps = { s.params with agingLimit := v.toNat }
      ∨ ident = 0x05#8 ∧ (∃ c, c.code = v.toNat ∧ ps = { s.params with maintenanceClass := c })
      ∨ ident = 0x06#8 ∧ ps = { s.params with staleMultiple := v.toNat }
      ∨ ident = 0x07#8 ∧ ps = { s.params with hangLimit := v.toNat }
      ∨ ident = 0x08#8 ∧ ps = { s.params with faultRetry := v.toNat }
      ∨ ident = 0x09#8 ∧ ps = { s.params with maxLease := v.toNat }
      ∨ ident = 0x0A#8 ∧ ps = { s.params with admitted := v.setWidth 4 }) →
    w = (if ident = 0x0A#8 then v &&& 0x000F#16 else v) →
      let done : Reply := ⟨.done, ident :: Half.bytes w⟩
      let stored := { s with params := ps }
      (ps = s.params → exec (.setParameter p ident v) s = .next (s.respond p done))
        ∧ (ps ≠ s.params → exec (.setParameter p ident v) s = .next (State.respond
            (if ident = 0x04#8 then stored.ageAll
              else if ident = 0x05#8 then stored.reclassAll
              else if ident = 0x06#8 then stored.recheckAllStale
              else if ident = 0x07#8 then stored.retimeHang
              else stored) p done))

/-- Time and aging. A millisecond boundary advances the boundary count and does nothing else (R26). The aging timer of waiting
work promotes it one class when its class mark is as old as the aging limit, and marks it now (R40); a new aging limit does so
at once for everything that waits (R41), and a new maintenance class gives every pending poll and probe that class, marked now
(R42). -/
def Obligations.TimeAndAging : Prop :=
  (∀ s : State, s.inReset = false → exec .millisecondBoundary s = .next { s with now := s.now + 1 })
    ∧ (∀ (s : State) (n : SlotId) (r : Request), s.inReset = false → s.request n = some r → r.state = .queued →
        exec (.classAgingExpiry (.slot n)) s = .next (s.setSlot n ⟨(s.slot n).issue, some (r.promotedIfDue s)⟩))
    ∧ (∀ (s : State) (e : EntryId) (u : MirrorUse) (m : Maint), s.inReset = false → s.entryUse e = some u →
        u.pending = some m → exec (.classAgingExpiry (.poll e)) s
          = .next (s.setEntry e ⟨(s.entry e).issue, some { u with pending := some (m.promotedIfDue s) }⟩))
    ∧ (∀ (s : State) (t : TargetId) (x : Target) (m : Maint), s.inReset = false → s.target t = some x →
        x.probe = some m → exec (.classAgingExpiry (.probe t)) s
          = .next (s.setTarget t (some { x with probe := some (m.promotedIfDue s) })))
    ∧ (∀ s : State, s.ageAll = { s with slots := s.ageAll.slots, entries := s.ageAll.entries, targets := s.ageAll.targets }
        ∧ (∀ n, s.ageAll.slot n = ⟨(s.slot n).issue, (s.request n).map fun r =>
            if r.state = .queued then r.promotedIfDue s else r⟩)
        ∧ (∀ e, s.ageAll.entry e = ⟨(s.entry e).issue, (s.entryUse e).map fun u => { u with
            pending := u.pending.map fun m => m.promotedIfDue s }⟩)
        ∧ ∀ t, s.ageAll.target t = (s.target t).map fun x => { x with
            probe := x.probe.map fun m => m.promotedIfDue s })
    ∧ ∀ s : State,
        s.reclassAll = { s with entries := s.reclassAll.entries, targets := s.reclassAll.targets }
          ∧ (∀ e, s.reclassAll.entry e = ⟨(s.entry e).issue, (s.entryUse e).map fun u => { u with
              pending := u.pending.map fun m => { m with cls := s.params.maintenanceClass, mark := s.now } }⟩)
          ∧ ∀ t, s.reclassAll.target t = (s.target t).map fun x => { x with
              probe := x.probe.map fun m => { m with cls := s.params.maintenanceClass, mark := s.now } }

/-- Two more parameters that act in the event of their change. A new stale multiple re-evaluates every VALID entry: to
STALE where its limit has passed, with MIRROR STATE (STALE) to its notifying sponsors, and otherwise with its stale timer
at the new limit; a new effective period re-evaluates one entry so (R66). A new hang limit gives a running hang timer the
new length from its set point, and a timer already as old expires in the event, as the expiry itself would act (R117).
The order of the entries in one queue, by rising number, is the model's inference (notes/assumptions/26.md). -/
def Obligations.StaleAndHangLimitsActAtOnce : Prop :=
  (∀ (s : State),
      s.recheckAllStale = { s with entries := s.recheckAllStale.entries, notices := s.recheckAllStale.notices }
        ∧ (∀ e, (∀ u, s.entryUse e = some u → u.state ≠ .valid) → s.recheckAllStale.entry e = s.entry e)
        ∧ ∀ e u v, s.entryUse e = some u → u.state = .valid → u.value = some v →
            let limit := s.params.staleMultiple * u.period
            s.recheckAllStale.entry e = ⟨(s.entry e).issue, some
              (if v.time + limit ≤ s.now then { u with state := .stale, staleTimer := none }
                else { u with staleTimer := some ⟨v.time, limit⟩ })⟩)
    ∧ (∀ s : State, s.recheckAllStale = State.tellOf { s with entries := s.recheckAllStale.entries } fun e =>
        (s.entryUse e).bind fun u => u.value.bind fun v =>
          if u.state = .valid ∧ v.time + s.params.staleMultiple * u.period ≤ s.now then some (u, .stale) else none)
    ∧ (∀ (s : State) (e : EntryId) (u : MirrorUse) (v : HeldValue), s.entryUse e = some u → u.value = some v →
        let limit := s.params.staleMultiple * u.period
        (u.state ≠ .valid → s.recheckStale e = s)
          ∧ (u.state = .valid → s.now < v.time + limit → s.recheckStale e
              = s.setEntry e ⟨(s.entry e).issue, some { u with staleTimer := some ⟨v.time, limit⟩ }⟩)
          ∧ (u.state = .valid → v.time + limit ≤ s.now → s.recheckStale e
              = (s.setEntry e ⟨(s.entry e).issue, some { u with state := .stale, staleTimer := none }⟩).offerTo
                  (.mirrorState e .stale) u.hearers))
    ∧ ∀ (s : State), s.inReset = false →
        (s.monitor.hang = none → s.retimeHang = s)
          ∧ ∀ tm, s.monitor.hang = some tm →
              let retimed := { s with monitor := { s.monitor with hang := some ⟨tm.setAt, s.params.hangLimit⟩ } }
              (s.now < tm.setAt + s.params.hangLimit → s.retimeHang = retimed)
                ∧ (tm.setAt + s.params.hangLimit ≤ s.now →
                    (s.monitor.state = .unknown ∨ s.monitor.state = .foreign →
                        exec .hangTimerExpiry retimed = .next s.retimeHang)
                      ∧ (s.monitor.state = .recovering → exec .nextRecoveryAttempt retimed = .next s.retimeHang))

/-- The resets. Every one leaves every block at its reset values (Table 9-3; R24, R46, R73, R92, R133, R146, R164, R168); as a
power-on reset or a low nRST ends, the straps name the supervisor port and the cause is recorded (R166, R174, R175, R177);
RESET PART is answered DONE and is pending on its frame; taken as the frame ends, it keeps the supervisor port and names its
own (R176, R177; with the lines as last read where the frame end does not give them, the model's choice,
notes/assumptions/6.md). -/
def Obligations.ResetsLeaveTheResetValues : Prop :=
  (∀ s : State,
      (∃ t, exec .powerOnReset s = .next t ∧ t.hold = ⟨true, s.hold.nrst, true⟩ ∧ t.atResetValues)
        ∧ ∃ t, exec .nrstLow s = .next t ∧ t.hold = ⟨s.hold.supply, true, s.hold.coldStart⟩ ∧ t.atResetValues)
    ∧ (∀ (s : State) (straps : BitVec 2) (lines : Lines) (selected : PortSet),
        let runs := fun (t : State) (cause : ResetCause) => t.hold = ⟨false, false, false⟩ ∧ t.atResetValues
          ∧ t.monitor.startsReading lines ∧ t.supervisor.index.val = straps.toNat ∧ t.cause = cause
          ∧ ∀ p, (t.port p).selected = selected.getLsbD p.index.val
        (s.hold.supply = true → s.hold.nrst = false →
            ∃ t, exec (.powerOnResetEnd straps lines selected) s = .next t ∧ runs t .powerOn)
          ∧ (s.hold.supply = true → s.hold.nrst = true →
              exec (.powerOnResetEnd straps lines selected) s = .next { s with hold := ⟨false, true, s.hold.coldStart⟩ }
                ∧ exec (.nrstRelease straps lines selected) s = .next { s with hold := ⟨true, false, s.hold.coldStart⟩ })
          ∧ (s.hold.supply = false → s.hold.nrst = true →
              ∃ t, exec (.nrstRelease straps lines selected) s = .next t
                ∧ runs t (if s.hold.coldStart then .powerOn else .resetPin)))
    ∧ (∀ (s : State) (p : Port), s.takesHeader p = true → s.supervisor = p → (s.port p).attached = true →
        exec (.resetPart p) s = .next ((s.updPort p fun h => { h with resetPending := true }).respond p ⟨.done, []⟩))
    ∧ ∀ (s : State) (p : Port) (lines : Lines), s.inReset = false → (s.port p).frame = .response →
        (s.port p).resetPending = true →
          exec (.frameEnd p) s = exec (.resetPartTaken p s.monitor.lines) s
            ∧ ∃ t, exec (.resetPartTaken p lines) s = .next t ∧ t.hold = s.hold ∧ t.atResetValues
              ∧ t.monitor.startsReading lines ∧ t.supervisor = s.supervisor ∧ t.cause = .resetCommand p
              ∧ ∀ q, (t.port q).selected = (q != p && (s.port q).selected)

/-! ## Completion -/

/-- Completion of a slot (R13, R14, R15, R23): an orphan is freed at once, with no notice; any other slot becomes DONE with
its result, leaves its port's request list and loses its abort-pending flag, COMPLETED with its ticket is offered to its owner
if NOTIFY is set, and then AUTO RELEASE frees it. No other slot and nothing else changes. -/
def Obligations.CompletionOfASlot : Prop :=
  ∀ (s : State) (n : SlotId) (r : Request) (res : Result) (ticket : Half), s.request n = some r →
    ticket.toNat = r.owner.index.val * 16384 + n.val * 256 + (s.slot n).issue.toNat →
      let unlisted := { s with lists := s.lists.set r.owner ((s.list r.owner).filter (· != n)) }
      let done := unlisted.setSlot n ⟨(s.slot n).issue, some { r with state := .done res, abortPending := false }⟩
      let told := if r.desc.notify then done.offer (.completed ticket res.outcome res.bytesDone) r.owner else done
      (r.orphan = true → s.completeSlot n res = unlisted.setSlot n ⟨(s.slot n).issue, none⟩)
        ∧ (r.orphan = false → s.completeSlot n res
            = if r.desc.autoRelease then told.setSlot n ⟨(s.slot n).issue, none⟩ else told)

/-- Completion of a poll (R60, R61, R62, R63): discarded where the entry is FREE or its issue number differs, as the use
that started the poll has then ended (that the 8-bit number alone tells this, its wrap included, is the model's choice,
notes/assumptions/35.md); any outcome is the entry's last poll outcome; OK, but in FAILED, stores the value, takes the
entry to VALID with its stale timer set, advances the sequence number where the value is new, offers MIRROR CHANGED to
the notifying sponsors whose mask covers a change (all of them on a first value), and MIRROR STATE where the entry was
STALE. Whatever the outcome, a poll that fell due as the poll ran falls due now, with the due time at which its timer
expired, and an entry that has a pending poll keeps that one (R57). Nothing else changes. That the state at completion
alone decides whether the bytes are stored (R61), so that a poll which ran through an onset and the return from it is
stored, is the model's choice (notes/assumptions/36.md). -/
def Obligations.CompletionOfAPoll : Prop :=
  ∀ (s : State) (e : EntryId) (issue : Byte) (o : TransferOutcome) (data : List Byte),
    (s.entryUse e = none ∨ (s.entry e).issue ≠ issue → s.completePoll e issue o data = s)
      ∧ ∀ u, s.entryUse e = some u → (s.entry e).issue = issue →
          let fallen := fun w : MirrorUse => match u.dueAfterRun with
            | none => w
            | some due => { w with
                dueAfterRun := none
                pending := some (u.pending.getD ⟨s.params.maintenanceClass, s.now, 0, due, false⟩) }
          (o ≠ .ok ∨ u.state = .failed → s.completePoll e issue o data
              = s.setEntry e ⟨issue, some (fallen { u with lastOutcome := some o })⟩)
            ∧ (u.state ≠ .failed → ∀ q : Half,
                ((∃ v, u.value = some v ∧ v.bytes = data) → q = u.seqNo) →
                ((∀ v, u.value = some v → v.bytes ≠ data) → q = u.seqNo + 1) →
                  let stored := s.setEntry e ⟨issue, some (fallen { u with
                    lastOutcome := some .ok, value := some ⟨data, s.now⟩, seqNo := q, state := .valid
                    staleTimer := some ⟨s.now, s.params.staleMultiple * u.period⟩ })⟩
                  let told := stored.offerTo (.mirrorChanged e q) (Port.all.filter fun p =>
                    (u.sponsors.get p).any fun sp => sp.notify && match u.value with
                      | none => true
                      | some v => (List.range 16).any fun i => sp.mask.getLsbD i && v.bytes[i]? != data[i]?)
                  s.completePoll e issue .ok data = if u.state = .stale then
                      told.offerTo (.mirrorState e .valid) (Port.all.filter fun p =>
                        (u.sponsors.get p).any fun sp => sp.notify)
                    else told)

/-! ## The dispatcher -/

/-- A QUEUED request is eligible by the four conditions of Table 2-2; a port offers the oldest eligible slot of its
request list, and M, of the due polls and probes whose target nobody has locked, the one with the earliest due time, and
at one due time probes before polls and the lower number first (R31 to R35, R39). A QUEUED UNDER LOCK request whose port
neither holds nor waits for its target's lock, and for which the order, fence and foreign-lock conditions hold, completes
NOT LOCKED with bytes done 0; no other slot changes (R36). Several in one event complete port by port, each port's oldest
first, every one by the pool's completion rule with its COMPLETED notice, and each as the ones before it leave the device
(R14, R36; the ports by rising number, notes/assumptions/7.md). The re-evaluation that ends an event is these completions
and then a selection (R29, R36; their place is the model's inference, notes/assumptions/7.md). -/
def Obligations.EligibleWorkIsOffered : Prop :=
  (∀ (s : State) (p : Port) (n : SlotId) (older younger : List SlotId), s.list p = older ++ n :: younger → n ∉ older →
      (s.eligible p n = true ↔ ∃ r, s.request n = some r ∧ r.state = .queued
        ∧ (∀ m ∈ older, ∀ q, s.request m = some q → q.desc.target ≠ r.desc.target ∧ q.desc.fence = false)
        ∧ (r.desc.fence = true → older = [])
        ∧ (∀ x h, s.targetAt r.desc.target = some x → x.lock = some h → h.port = p)
        ∧ (r.desc.underLock = true → ∃ x h, s.targetAt r.desc.target = some x ∧ x.lock = some h ∧ h.port = p)))
    ∧ (∀ (s : State) (p : Port) (n : SlotId), s.headCandidate p = some n ↔
        ∃ older younger, s.list p = older ++ n :: younger ∧ s.eligible p n = true ∧ ∀ m ∈ older, s.eligible p m = false)
    ∧ (∀ (s : State) (t : TargetId) (a : Byte) (m : Maint), .probe t a m ∈ s.maintenanceItems ↔
        ∃ x, s.target t = some x ∧ x.addr = a ∧ x.lock = none ∧ x.probe = some m)
    ∧ (∀ (s : State) (e : EntryId) (i : Byte) (k : Key) (m : Maint), .poll e i k m ∈ s.maintenanceItems ↔
        ∃ u, s.entry e = ⟨i, some u⟩ ∧ u.key = k ∧ u.pending = some m
          ∧ ∀ x, s.targetAt k.addr = some x → x.lock = none)
    ∧ (∀ (s : State) (w : Work), s.maintenanceCandidate = some w ↔
        ∃ before after, s.maintenanceItems = before ++ w :: after ∧ (∀ v ∈ before, w.due < v.due)
          ∧ ∀ v ∈ after, w.due ≤ v.due)
    ∧ (∀ s : State, s.maintenanceItems.Pairwise Work.precedes)
    ∧ (∀ (s : State) (p : Port) (n : SlotId) (older younger : List SlotId), s.list p = older ++ n :: younger → n ∉ older →
        (s.notLockedDue p n = true ↔ ∃ r, s.request n = some r ∧ r.state = .queued ∧ r.desc.underLock = true
          ∧ (∀ m ∈ older, ∀ q, s.request m = some q → q.desc.target ≠ r.desc.target ∧ q.desc.fence = false)
          ∧ (r.desc.fence = true → older = [])
          ∧ ∀ x, s.targetAt r.desc.target = some x → x.lock = none ∧ x.awaits p = false))
    ∧ ∀ s : State,
        let z := s.notLockedAll
        z = { s with slots := z.slots, lists := z.lists, notices := z.notices }
          ∧ s.settle = z.select
          ∧ z = Port.all.foldl (fun a p => (a.list p).foldl (fun b n =>
              if b.notLockedDue p n = true then b.completeSlot n ⟨.notLocked, 0, []⟩ else b) a) s
          ∧ ((∀ p n, n ∈ s.list p → s.notLockedDue p n = false) → z = s)
          ∧ (∀ p n r, n ∈ s.list p → s.notLockedDue p n = true → s.request n = some r →
              ((∀ q m v, m ∈ s.list q → s.request m = some v → v.state = .queued → v.desc.underLock = true → m = n) →
                z = s.completeSlot n ⟨.notLocked, 0, []⟩)
              ∧ z.request n = if r.orphan || r.desc.autoRelease then none
                else some { r with state := .done ⟨.notLocked, 0, []⟩, abortPending := false })
          ∧ ∀ n r, s.request n = some r → z.request n = some r
              ∨ r.state = .queued ∧ r.desc.underLock = true
                ∧ (∃ p, n ∈ s.list p ∧ ∀ x, s.targetAt r.desc.target = some x → x.lock = none ∧ x.awaits p = false)
                ∧ z.request n = if r.orphan || r.desc.autoRelease then none
                  else some { r with state := .done ⟨.notLocked, 0, []⟩, abortPending := false }

/-- A selection (R29, R30, R43): with the engine IDLE and the monitor FREE, the highest class offered is taken, and at it the
first participant after the class's rotation pointer in the order H0, H1, H2, H3, M, which the pointer then names; with
nothing offered, or the bus not free, nothing starts. What starts: a slot goes ACTIVE; a poll's first start sets the entry's
next due time one effective period on (R12, R59, R89); and the engine takes the work at the lower of the two rates (R111,
R120). -/
def Obligations.SelectionAndStart : Prop :=
  (∀ (s : State), s.engine ≠ .idle ∨ s.monitor.state ≠ .free ∨ (∀ x w, s.candidate x = some w → s.classOfWork w = none) →
      s.select = s)
    ∧ (∀ (s : State) (c : WorkClass) (x : Participant) (w : Work), s.engine = .idle → s.monitor.state = .free →
        s.candidate x = some w → s.classOfWork w = some c →
        (∀ y v d, s.candidate y = some v → s.classOfWork v = some d → c.code ≤ d.code) →
        (∀ y v, y ∈ (s.pointers.get c).following.takeWhile (· != x) → s.candidate y = some v → s.classOfWork v ≠ some c) →
          s.select = { s with pointers := s.pointers.set c x }.startWork w)
    ∧ ∀ (s : State) (x : Target) (rate : Rate), rate.khz = min s.params.busRate.khz x.speed.khz →
        let engine := fun w : Work => Engine.transfer ⟨w, rate, x.stretchLimit, 0, none, false⟩
        (∀ n r, s.request n = some r → s.targetAt r.desc.target = some x → s.startWork (.request n)
            = { s.setSlot n ⟨(s.slot n).issue, some { r with state := .active, attempts := 0 }⟩ with
                engine := engine (.request n) })
          ∧ (∀ e u i k m, s.entryUse e = some u → s.targetAt k.addr = some x → m.started = false ∨ u.dueTimer = none →
              s.startWork (.poll e i k m) = { s.setEntry e ⟨(s.entry e).issue, some { u with
                  pending := none, lastStart := some s.now, nextDue := some (s.now + u.period)
                  dueTimer := some ⟨s.now, u.period⟩, dueAfterRun := none }⟩ with
                engine := engine (.poll e i k m) })
          ∧ (∀ e u i k m, s.entryUse e = some u → s.targetAt k.addr = some x → m.started = true → u.dueTimer ≠ none →
              s.startWork (.poll e i k m) = { s.setEntry e ⟨(s.entry e).issue, some { u with pending := none }⟩ with
                engine := engine (.poll e i k m) })
          ∧ ∀ t m, s.target t = some x → s.targetAt x.addr = some x → s.startWork (.probe t x.addr m)
              = { s.setTarget t (some { x with probe := none }) with engine := engine (.probe t x.addr m) }

/-- The device never idles while work waits: under the laws of its blocks, if no selection could start anything and no NOT
LOCKED completion was due before a command or an event, none is after it (R29, R36). -/
def Obligations.NoIdlingWhileWorkWaits : Prop :=
  let settled := fun z : State => (∀ p n, n ∈ z.list p → z.notLockedDue p n = false)
    ∧ (z.engine = .idle → z.monitor.state = .free → ∀ x, z.candidate x = none)
  ∀ (c : Instr) (s t : State), s.busLaw → s.poolLaw → s.lockLaw → s.healthLaw → s.mirrorLaw → s.tableLaw → s.sessionLaw →
    settled s → exec c s = .next t → settled t

/-! ## The field bus engine -/

/-- The start of an address attempt and the clock stretch. START takes the monitor to OWNED and advances the attempt
count, in the slot for a host request and in the engine for a poll or a probe (R115, R120, R121), and the transfer keeps
whether the request's abort-pending flag stands set then (R126); a released line that reads low sets the stretch timer,
and its rise stops it, with nothing else changed (R112); at the stretch timer's expiry the transfer completes STRETCH
TIMEOUT with the bytes done before the stretch, and in the same event a recovery attempt begins with the count at 0
(R125); with the flag set since START it can have come no further than the first abort boundary (R126, R127). The place
of the NOT LOCKED completions after the completion of the transfer, the order of the event's moves, and the levels of the
lines after START are the model's inferences (notes/assumptions/7.md, 25.md and 27.md). The last clause, that a timeout
told of a flagged transfer further than its first abort boundary leaves the state as it is, is no rule's: an event that
cannot occur is a row of the table all the same, and the model's form for it is a next state with nothing changed
(notes/assumptions/3.md and 16.md). -/
def Obligations.StartAndStretch : Prop :=
  ∀ (s : State) (f : Transfer), s.inReset = false → s.engine = .transfer f →
    (s.monitor.state = .free →
        let owned := { s with monitor := { s.monitor with state := .owned, lines := ⟨true, false⟩ } }
        (∀ n r, f.work = .request n → s.request n = some r → exec .start s
            = .next { owned.setSlot n ⟨(s.slot n).issue, some { r with attempts := r.attempts + 1 }⟩ with
                engine := .transfer { f with flagAtStart := r.abortPending } })
          ∧ ((∀ n, f.work ≠ .request n) → exec .start s
            = .next { owned with engine := .transfer { f with attempts := f.attempts + 1, flagAtStart := false } }))
      ∧ (s.monitor.state = .owned →
          (f.stretch = none → exec .clockStretchStart s
              = .next { s with engine := .transfer { f with stretch := some ⟨s.now, f.stretchLimit⟩ } })
            ∧ exec .clockStretchEnd s = .next { s with engine := .transfer { f with stretch := none } }
            ∧ ∀ tm g sh, f.stretch = some tm → tm.setAt + tm.length ≤ s.now → s.shape f.work = some sh →
                let early := g.written = 0 ∧ (g.read = [] ∨ sh.kind = .read ∧ g.read.length = 1)
                ((g.addressed = false → g.written = 0 ∧ g.read = []) →
                (g.written ≠ 0 → sh.kind = .write ∧ g.written ≤ sh.write) →
                (g.read ≠ [] → (sh.kind = .read ∨ sh.kind = .indexedRead) ∧ g.read.length ≤ sh.read) →
                (s.flagged f → early) →
                  exec (.stretchTimeout g) s = .next (State.settle (State.deliver
                    { s with engine := .recovery true, monitor := s.monitor.inAttempt 0 } f.work
                    ⟨.stretchTimeout, g.written + g.read.length, g.read, g.addressed⟩)))
                  ∧ (s.flagged f → ¬ early → exec (.stretchTimeout g) s = .next s))

/-- The end of a transfer with its STOP (R119, R121, R122, R123, R126, R127): the engine goes to IDLE and the monitor to
FREE, the report goes to the block that asked and then to the target table, and the dispatcher re-evaluates. The bytes
done are those of Table 1-12. An address NACK with attempts left only takes the monitor to FREE, for another attempt.
With the abort-pending flag set since the START of the attempt no other end is possible than the first acknowledged
boundary's: ABORTED with bytes done 0, for a READ with its first byte, and OK where that boundary is the transfer's last
(R126, R127); a flag set later may be met at any boundary, which the event tells (the model's form,
notes/assumptions/16.md). That an end told which cannot occur leaves the state as it is (the clauses `stays`) is the
model's form as well (notes/assumptions/3.md and 16.md). The place of the re-evaluation at the end of the event, after
what the accounting completes NOT LOCKED ahead of a TARGET STATE, and the one effect of both rows for an address NACK,
are the model's inferences (notes/assumptions/7.md and 17.md). So is it that a poll's report reaches the accounting
whatever its entry's state: a DATA NACK on a FAILED entry of a QUARANTINED target ends the quarantine, and the entry
leaves FAILED, where Table 3-6 has it stay FAILED (notes/assumptions/29.md). -/
def Obligations.TransfersEnd : Prop :=
  (∀ (q : State) (o : TransferOutcome) (b : Nat) (data : List Byte) (a : Bool),
      (∀ n r, q.request n = some r → q.deliver (.request n) ⟨o, b, data, a⟩
          = (q.completeSlot n ⟨o, b, data⟩).account r.desc.target o a)
        ∧ (∀ e i k m, q.deliver (.poll e i k m) ⟨o, b, data, a⟩ = (q.completePoll e i o data).account k.addr o a)
        ∧ ∀ t addr m, q.deliver (.probe t addr m) ⟨o, b, data, a⟩ = (q.account addr o a).reschedule t)
    ∧ ∀ (s : State) (f : Transfer), s.inReset = false → s.engine = .transfer f → s.monitor.state = .owned →
        f.stretch = none →
          let ended := fun report : Report => (({ s with engine := .idle }.madeFree).deliver f.work report).settle
          let stays := fun how : TransferEnd => exec (.transferCompletion how) s = .next s
          (∀ n r, f.work = .request n → s.request n = some r → ¬ s.flagged f →
              (r.desc.kind = .write → r.desc.readLen = 0 →
                  exec (.transferCompletion (.finished [])) s = .next (ended ⟨.ok, r.desc.data.length, [], true⟩))
                ∧ (∀ data, r.desc.kind ≠ .write → data.length = r.desc.readLen →
                  exec (.transferCompletion (.finished data)) s = .next (ended ⟨.ok, data.length, data, true⟩))
                ∧ (∀ w, r.desc.kind = .write ∧ (w < r.desc.data.length ∨ w = 0) ∨ r.desc.kind = .indexedRead ∧ w = 0 →
                  exec (.transferCompletion (.dataNack w)) s = .next (ended ⟨.dataNack, w, [], true⟩)
                    ∧ (r.abortPending = true →
                      exec (.transferCompletion (.aborted w [])) s = .next (ended ⟨.aborted, w, [], true⟩)))
                ∧ (∀ data, data ≠ [] → data.length < r.desc.readLen → r.abortPending = true →
                  exec (.transferCompletion (.aborted 0 data)) s = .next (ended ⟨.aborted, data.length, data, true⟩))
                ∧ (r.abortPending = false → ∀ w data, stays (.aborted w data)))
            ∧ (∀ n r, f.work = .request n → s.request n = some r → s.flagged f →
              (r.desc.kind = .write ∨ r.desc.kind = .indexedRead →
                  exec (.transferCompletion (.aborted 0 [])) s = .next (ended ⟨.aborted, 0, [], true⟩)
                    ∧ ∀ how, how ≠ .addressNack → how ≠ .aborted 0 [] → stays how)
                ∧ (r.desc.kind = .read → 1 < r.desc.readLen →
                  (∀ b, exec (.transferCompletion (.aborted 0 [b])) s = .next (ended ⟨.aborted, 1, [b], true⟩))
                    ∧ ∀ how, how ≠ .addressNack → (∀ b, how ≠ .aborted 0 [b]) → stays how)
                ∧ (r.desc.kind = .read → r.desc.readLen = 1 →
                  (∀ b, exec (.transferCompletion (.finished [b])) s = .next (ended ⟨.ok, 1, [b], true⟩))
                    ∧ ∀ how, how ≠ .addressNack → (∀ b, how ≠ .finished [b]) → stays how)
                ∧ (r.desc.kind = .probe → r.desc.readLen = 0 →
                  exec (.transferCompletion (.finished [])) s = .next (ended ⟨.ok, 0, [], true⟩)
                    ∧ ∀ how, how ≠ .addressNack → how ≠ .finished [] → stays how))
            ∧ (∀ e i k m data, f.work = .poll e i k m → data.length = k.len →
                exec (.transferCompletion (.finished data)) s = .next (ended ⟨.ok, data.length, data, true⟩))
            ∧ (∀ e i k m, f.work = .poll e i k m → k.index ≠ [] →
                exec (.transferCompletion (.dataNack 0)) s = .next (ended ⟨.dataNack, 0, [], true⟩))
            ∧ (∀ t a m, f.work = .probe t a m →
                exec (.transferCompletion (.finished [])) s = .next (ended ⟨.ok, 0, [], true⟩))
            ∧ ∀ attempts, (∀ n r, f.work = .request n → s.request n = some r → attempts = r.attempts) →
                (∀ n, f.work = .request n → s.request n ≠ none) →
                ((∀ n, f.work ≠ .request n) → attempts = f.attempts) →
                  exec (.transferCompletion .addressNack) s = exec .addressAttemptNack s
                    ∧ (attempts < 1 + s.params.addressRetries → exec .addressAttemptNack s = .next s.madeFree)
                    ∧ (1 + s.params.addressRetries ≤ attempts →
                        exec .addressAttemptNack s = .next (ended ⟨.addressNack, 0, [], false⟩))

/-- A transfer lost to another master (R44, R45, R64, R89, R121, R124), whether in a byte or while the engine waits to
issue a START: the engine goes to IDLE and the monitor to FOREIGN; a request below the limit returns to QUEUED at its
place, and at the limit, or with abort-pending set, or an orphan, or a target QUARANTINED, it completes; a poll or probe
below the limit stays pending. The hang timer set by the loss, and the levels of the lines after it, are the model's
inferences (notes/assumptions/5.md and 27.md), and so is the place of the NOT LOCKED completions that are due without a
TARGET STATE, after the notices of a completion (notes/assumptions/7.md). That an INDEXED READ lost in an index byte may
report its address acknowledged or not, which decides how a completion is accounted, is the model's choice
(notes/assumptions/33.md); that an entry which already has a pending poll keeps that one is its inference
(notes/assumptions/9.md); and that a lost poll is told from one of an ended use of its entry by the 8-bit issue number
alone is its choice (notes/assumptions/35.md). With abort-pending set since START the loss can come in the first address
byte alone (R126). -/
def Obligations.LostTransfers : Prop :=
  ∀ (s : State) (f : Transfer) (c : Instr) (lines : Lines) (written : Nat) (acknowledged : Bool), s.inReset = false →
    s.engine = .transfer f →
    (s.monitor.state = .owned ∧ f.stretch = none ∧ lines = ⟨true, false⟩
        ∧ c = .arbitrationLoss ⟨acknowledged, written, []⟩
        ∧ (∃ sh, s.shape f.work = some sh ∧ (written = 0 ∨ acknowledged = true ∧ sh.kind = .write ∧ written < sh.write)
          ∧ (sh.kind = .read ∨ sh.kind = .probe → acknowledged = false) ∧ (s.flagged f → acknowledged = false))
      ∨ s.monitor.state = .free ∧ written = 0 ∧ acknowledged = false
        ∧ (lines = ⟨true, false⟩ ∧ (c = .foreignStart ∨ c = .lineActivityBeforeStart .fda)
          ∨ lines = ⟨false, true⟩ ∧ c = .lineActivityBeforeStart .fcl)) →
      let lost := { s with engine := .idle }.madeForeign lines
      (∀ n r, f.work = .request n → s.request n = some r →
          let counted := lost.setSlot n ⟨(s.slot n).issue, some { r with losses := r.losses + 1 }⟩
          let quarantined := r.desc.kind ≠ .probe ∧ ∃ x, s.targetAt r.desc.target = some x ∧ x.health = .quarantined
          (r.abortPending = true → exec c s
              = .next (counted.deliver (.request n) ⟨.aborted, 0, [], acknowledged⟩).settle)
            ∧ (r.abortPending = false → r.orphan = true ∨ ¬ quarantined ∧ s.params.lossLimit ≤ r.losses + 1 → exec c s
              = .next (counted.deliver (.request n) ⟨.busContended, written, [], acknowledged⟩).settle)
            ∧ (r.abortPending = false → r.orphan = false → quarantined → exec c s
              = .next (counted.completeSlot n ⟨.targetQuarantined, 0, []⟩).settle)
            ∧ (r.abortPending = false → r.orphan = false → ¬ quarantined → r.losses + 1 < s.params.lossLimit → exec c s
              = .next (lost.setSlot n ⟨(s.slot n).issue, some
                  (Request.promotedIfDue { r with losses := r.losses + 1, state := .queued } s)⟩).settle))
        ∧ (∀ e i k m, f.work = .poll e i k m →
            (s.params.lossLimit ≤ m.losses + 1 → exec c s
                = .next (lost.deliver f.work ⟨.busContended, 0, [], acknowledged⟩).settle)
              ∧ (m.losses + 1 < s.params.lossLimit →
                  (∀ u, s.entry e = ⟨i, some u⟩ → u.state ≠ .failed → exec c s
                      = .next (lost.setEntry e ⟨i, some { u with
                          pending := some (u.pending.getD
                            (Maint.promotedIfDue { m with losses := m.losses + 1, started := true } s))
                          dueAfterRun := none }⟩).settle)
                    ∧ ((∀ u, s.entry e = ⟨i, some u⟩ → u.state = .failed) → exec c s = .next lost.settle)))
        ∧ ∀ t a m, f.work = .probe t a m →
            (s.params.lossLimit ≤ m.losses + 1 → exec c s
                = .next (lost.deliver f.work ⟨.busContended, 0, [], acknowledged⟩).settle)
              ∧ (m.losses + 1 < s.params.lossLimit →
                  (∀ x, s.target t = some x → x.health = .quarantined → exec c s = .next (lost.setTarget t (some { x with
                      probe := some (Maint.promotedIfDue { m with losses := m.losses + 1, started := true } s) })).settle)
                    ∧ ((∀ x, s.target t = some x → x.health ≠ .quarantined) → exec c s = .next lost.settle))

/-! ## The bus monitor -/

/-- What the monitor observes, with no transfer on the engine (R114, R115, R116, R129, R131): a START takes every state to
FOREIGN, and ends a recovery sequence, whose hang timer it stops; a STOP takes UNKNOWN, FOREIGN and the wait between attempts
to FREE and leaves FAULTED; another change bears on the timers of UNKNOWN and FOREIGN, takes FREE to FOREIGN, and elsewhere
moves nothing. That a START in FREE or FAULTED sets the hang timer, and which levels a START or a move to FREE leaves, are
the model's inferences (notes/assumptions/5.md and 27.md). -/
def Obligations.MonitorObserves : Prop :=
  ∀ (s : State), s.inReset = false →
    let state := s.monitor.state
    let waits := state = .recovering ∧ s.engine = .recovery false
    ((state = .unknown ∨ state = .free ∨ state = .foreign ∨ state = .faulted) ∧ s.engine = .idle ∨ waits →
        let z := { s with engine := .idle }.madeForeign ⟨true, false⟩
        exec .foreignStart s
            = .next (if state = .recovering then { z with monitor := { z.monitor with hang := none } } else z)
          ∧ (s.monitor.lines = ⟨true, true⟩ → exec (.lineActivity .fdaFalls) s = exec .foreignStart s))
      ∧ ((state = .unknown ∨ state = .foreign) ∧ s.engine = .idle ∨ waits →
        exec .foreignStop s = .next ({ s with engine := .idle }.madeFree).settle
          ∧ (s.monitor.lines = ⟨true, false⟩ → exec (.lineActivity .fdaRises) s = exec .foreignStop s))
      ∧ (state = .faulted → s.engine = .idle →
        exec .foreignStop s = .next { s with monitor := { s.monitor with lines := ⟨true, true⟩ } })
      ∧ ∀ (c : LineChange) (l : Lines),
          (c = .fclFalls ∧ s.monitor.lines.fcl = true ∧ l = { s.monitor.lines with fcl := false }
            ∨ c = .fclRises ∧ s.monitor.lines.fcl = false ∧ l = { s.monitor.lines with fcl := true }
            ∨ c = .fdaFalls ∧ s.monitor.lines = ⟨false, true⟩ ∧ l = ⟨false, false⟩
            ∨ c = .fdaRises ∧ s.monitor.lines = ⟨false, false⟩ ∧ l = ⟨false, true⟩) →
          (state = .unknown → s.engine = .idle → l = ⟨true, true⟩ → exec (.lineActivity c) s
              = .next { s with monitor := { s.monitor with lines := l, idle := some ⟨s.now, 1⟩, hang := none } })
            ∧ (state = .unknown → s.engine = .idle → l ≠ ⟨true, true⟩ → exec (.lineActivity c) s = .next { s with
                monitor := { s.monitor with lines := l, idle := none, hang := some ⟨s.now, s.params.hangLimit⟩ } })
            ∧ (state = .free → s.engine = .idle → exec (.lineActivity c) s = .next (s.madeForeign l))
            ∧ (state = .foreign → s.engine = .idle → exec (.lineActivity c) s
                = .next { s with monitor := { s.monitor with lines := l, hang := some ⟨s.now, s.params.hangLimit⟩ } })
            ∧ (waits ∨ state = .faulted ∧ s.engine = .idle → exec (.lineActivity c) s
                = .next { s with monitor := { s.monitor with lines := l } })

/-- The timers of the monitor and the recovery attempt (R114, R116, R117, R128, R129, R130, R131). A hang begins a
recovery sequence; the wait, the fault retry, and BUS RESET in FAULTED, begin the next attempt (BUS RESET is BUSY
elsewhere, R173); the idle confirmation, and a hang timer that finds both lines high in FOREIGN, take the monitor to
FREE. An attempt succeeds when both lines read high; a failure advances the count, and at 3 the bus is FAULTED: every
QUEUED slot completes BUS FAULT with its COMPLETED notice, no other slot changes, and then BUS STATE carrying FAULTED is
offered to every attached port where the flag was clear, and none on a re-entry (R130). A wait and an attempt are told
apart in the engine's state (notes/assumptions/19.md). -/
def Obligations.RecoveryAndFault : Prop :=
  ∀ (s : State), s.inReset = false →
    (∀ tm, s.monitor.hang = some tm → tm.setAt + tm.length ≤ s.now →
        ((s.monitor.state = .unknown ∨ s.monitor.state = .foreign) → s.monitor.lines ≠ ⟨true, true⟩ →
            exec .hangTimerExpiry s = .next { s with monitor := s.monitor.inAttempt 0, engine := .recovery true })
          ∧ (s.monitor.state = .foreign → s.monitor.lines = ⟨true, true⟩ →
            exec .hangTimerExpiry s = .next s.madeFree.settle)
          ∧ (s.monitor.state = .recovering → s.engine = .recovery false → exec .nextRecoveryAttempt s
            = .next { s with monitor := s.monitor.inAttempt s.monitor.failed, engine := .recovery true }))
      ∧ (∀ tm, s.monitor.idle = some tm → tm.setAt + tm.length ≤ s.now → s.monitor.state = .unknown →
        s.monitor.lines = ⟨true, true⟩ → exec .idleConfirmationExpiry s = .next s.madeFree.settle)
      ∧ (∀ tm, s.monitor.retry = some tm → tm.setAt + tm.length ≤ s.now → s.monitor.state = .faulted →
        exec .faultRetryExpiry s
          = .next { s with monitor := s.monitor.inAttempt s.monitor.failed, engine := .recovery true })
      ∧ (∀ p, s.takesHeader p = true → s.supervisor = p → (s.port p).attached = true →
        (s.monitor.state = .faulted → exec (.busReset p) s = .next (State.respond
            { s with monitor := s.monitor.inAttempt s.monitor.failed, engine := .recovery true } p ⟨.done, []⟩))
          ∧ (s.monitor.state ≠ .faulted → exec (.busReset p) s = .next (s.respond p ⟨.busy, []⟩)))
      ∧ (s.engine = .recovery true →
        exec (.recoveryAttemptEnd ⟨true, true⟩) s = .next ({ s with engine := .idle }.madeFree).settle
          ∧ ∀ lines failed, lines ≠ ⟨true, true⟩ → failed = min (s.monitor.failed + 1) 255 →
              (failed < 3 → exec (.recoveryAttemptEnd lines) s = .next { s with
                  monitor := { s.monitor with
                    failed := failed, lines := lines, hang := some ⟨s.now, s.params.hangLimit⟩ }
                  engine := .recovery false })
                ∧ (3 ≤ failed →
                  let faulted := { s with
                    monitor := { s.monitor with
                      state := .faulted, failed := failed, lines := lines, busFault := true, hang := none, idle := none
                      retry := some ⟨s.now, s.params.faultRetry⟩ }
                    engine := .idle }
                  let completed := faulted.completeQueuedAll (fun _ => true) .busFault
                  (∃ z, exec (.recoveryAttemptEnd lines) s = .next z
                      ∧ z = (if s.monitor.busFault then completed
                        else completed.offerTo (.busState .faulted) (Port.all.filter fun p => (s.port p).attached))
                      ∧ z = { faulted with slots := z.slots, lists := z.lists, notices := z.notices }
                      ∧ (∀ n r, s.request n = some r → r.state ≠ .queued → z.request n = some r)
                      ∧ ∀ p n r, n ∈ s.list p → s.request n = some r → r.state = .queued → r.orphan = false →
                          z.request n = if r.desc.autoRelease then none
                            else some { r with state := .done ⟨.busFault, 0, []⟩, abortPending := false })
                    ∧ ((∀ p, ∀ n ∈ s.list p, ∀ r, s.request n = some r → r.state ≠ .queued) →
                        exec (.recoveryAttemptEnd lines) s = .next (if s.monitor.busFault then faulted
                          else faulted.offerTo (.busState .faulted) (Port.all.filter fun p => (s.port p).attached)))))

/-! ## The device as a whole -/

/-- What only certain commands write, the resets apart (R26, R82, R137, R158, R159, R166, R168, R177): parameters, supervisor
and cause, time, sessions and generations, notice masks, declarations, mirror keys; and a slot keeps owner, session and
descriptor as long as its issue number stands (R3). -/
def Obligations.OnlyTheseCommandsWrite : Prop :=
  ∀ (c : Instr) (s t : State), exec c s = .next t →
    c ≠ .powerOnReset → c ≠ .nrstLow → (∀ a l n, c ≠ .powerOnResetEnd a l n ∧ c ≠ .nrstRelease a l n) →
    (∀ p l, c ≠ .resetPartTaken p l) → (∀ p, c = .frameEnd p → (s.port p).resetPending = false) →
      t.hold = s.hold ∧ t.supervisor = s.supervisor ∧ t.cause = s.cause
        ∧ ((∀ p i v, c ≠ .setParameter p i v) → t.params = s.params)
        ∧ t.now = (if c = .millisecondBoundary ∧ s.inReset = false then s.now + 1 else s.now)
        ∧ (∀ p, c ≠ .attach p → (t.port p).generation = (s.port p).generation)
        ∧ (∀ p, c ≠ .attach p → c ≠ .detach p → (∀ q b, c = .evictPort q b → portNumber p ≠ b) →
            (t.port p).attached = (s.port p).attached
              ∧ ((∀ m, c ≠ .setNoticeMask p m) → (t.noticePort p).mask = (s.noticePort p).mask))
        ∧ ((∀ p d, c ≠ .declareTarget p d) → (∀ p a, c ≠ .removeTarget p a) → ∀ u,
            (s.target u = none ↔ t.target u = none) ∧ ∀ x y, s.target u = some x → t.target u = some y →
              y.addr = x.addr ∧ y.speed = x.speed ∧ y.stretchLimit = x.stretchLimit ∧ y.threshold = x.threshold
                ∧ y.probeInterval = x.probeInterval ∧ y.readSet = x.readSet ∧ y.writeSet = x.writeSet)
        ∧ ((∀ p k a f m, c ≠ .mirrorDefine p k a f m) → (∀ p b, c ≠ .mirrorDrop p b) →
            (∀ p, c ≠ .attach p ∧ c ≠ .detach p) → (∀ p b, c ≠ .evictPort p b) → ∀ e,
              (t.entry e).issue = (s.entry e).issue
                ∧ (t.entryUse e).map (fun u => (u.key, u.sponsors)) = (s.entryUse e).map (fun u => (u.key, u.sponsors)))
        ∧ ∀ n r q, s.request n = some r → t.request n = some q → (t.slot n).issue = (s.slot n).issue →
            q.owner = r.owner ∧ q.generation = r.generation ∧ q.desc = r.desc

/-- Every step keeps the law of the notice queues (R134, R136, R138, R140, R145). -/
def Obligations.StepsKeepTheNoticeLaw : Prop :=
  ∀ s t : State, s.noticeLaw → step s = .next t → t.noticeLaw

/-- Every step keeps the law of the locks, and with it the law of the sessions: what a port holds, it holds in a session (R93,
R160). -/
def Obligations.StepsKeepTheLockAndSessionLaws : Prop :=
  ∀ s t : State, s.lockLaw → step s = .next t → t.lockLaw ∧ (s.sessionLaw → t.sessionLaw)

/-- Every step keeps the law of the bus monitor, and with it the law of the slot pool: the request lists hold exactly the
QUEUED slots and the one ACTIVE slot, which is the engine's (R6, R22, R30, R113). -/
def Obligations.StepsKeepTheBusAndPoolLaws : Prop :=
  ∀ s t : State, s.busLaw → step s = .next t → t.busLaw ∧ (s.poolLaw → t.poolLaw)

/-- Every step keeps the law of the quota, and the sizes of the records that a response carries (R8, Tables 0-3, 1-5 and
3-3). -/
def Obligations.StepsKeepTheQuotaAndSizeLaws : Prop :=
  ∀ s t : State, step s = .next t → (s.quotaLaw → t.quotaLaw) ∧ (s.sizeLaw → t.sizeLaw)

/-- Every step keeps the laws of the target table and of the mirror table, and the law that binds the two: an entry is FAILED
exactly when its target is QUARANTINED (R47, R49, R50, R67, R75, R83). -/
def Obligations.StepsKeepTheTableLaws : Prop :=
  ∀ s t : State, step s = .next t →
    (s.healthLaw → t.healthLaw) ∧ (s.mirrorLaw → t.mirrorLaw) ∧ (s.tableLaw → t.tableLaw)

/-- The machine after reset has every law; and a power-on reset that ends with the straps 00, every line high and no chip
select low, which the model takes for its reset state (notes/assumptions/1.md), leaves exactly that state. -/
def Obligations.LawsHoldAtReset : Prop :=
  (State.reset.noticeLaw ∧ State.reset.lockLaw ∧ State.reset.sessionLaw ∧ State.reset.busLaw ∧ State.reset.poolLaw
      ∧ State.reset.quotaLaw ∧ State.reset.sizeLaw ∧ State.reset.healthLaw ∧ State.reset.mirrorLaw ∧ State.reset.tableLaw)
    ∧ ∃ t, exec .powerOnReset State.reset = .next t
      ∧ exec (.powerOnResetEnd 0#2 ⟨true, true⟩ 0#4) t = .next State.reset
end

