-- ==== Sys2Proof/Laws/State.lean ====
section
/-! SUPPORT. What each update of a record of the state leaves in each field, and what a record reads as after an update. -/

namespace Sys2Proof

@[simp] theorem PerPort.get_set {α : Type} (x : PerPort α) (p q : Port) (v : α) :
    (x.set p v).get q = if q = p then v else x.get q := by
  cases p <;> cases q <;> rfl

@[simp] theorem PerPort.get_same {α : Type} (v : α) (p : Port) : (PerPort.same v).get p = v := by cases p <;> rfl

/-- Two records are equal when they hold the same for every port. -/
theorem PerPort.ext_get {α : Type} {x y : PerPort α} (h : ∀ p, x.get p = y.get p) : x = y := by
  have h0 := h .h0
  have h1 := h .h1
  have h2 := h .h2
  have h3 := h .h3
  cases x
  cases y
  simp_all [PerPort.get]

@[simp] theorem Port.mem_all (p : Port) : p ∈ Port.all := by cases p <;> decide

/-- Reading a vector after one place of it was written. -/
theorem get_set_vector {α : Type} {k : Nat} (v : Vector α k) (i j : Fin k) (x : α) :
    (v.set i.val x i.isLt).get j = if j = i then x else v.get j := by
  change (v.set i.val x i.isLt)[j.val] = if j = i then x else v[j.val]
  rw [Vector.getElem_set]
  by_cases h : j = i
  · simp [h]
  · have h' : ¬ (i.val = j.val) := fun c => h (Fin.ext c.symm)
    simp [h, h']

namespace Machine

variable (s : State) (p q : Port) (n m : SlotId) (e d : EntryId) (t u : TargetId)

/-! ## Fields after an update -/

@[simp] theorem updPort_fields (f : HostPort → HostPort) :
    (s.updPort p f).pending = s.pending ∧ (s.updPort p f).hold = s.hold ∧ (s.updPort p f).supervisor = s.supervisor
      ∧ (s.updPort p f).cause = s.cause ∧ (s.updPort p f).params = s.params ∧ (s.updPort p f).now = s.now
      ∧ (s.updPort p f).notices = s.notices ∧ (s.updPort p f).slots = s.slots ∧ (s.updPort p f).lists = s.lists
      ∧ (s.updPort p f).pointers = s.pointers ∧ (s.updPort p f).entries = s.entries ∧ (s.updPort p f).targets = s.targets
      ∧ (s.updPort p f).engine = s.engine ∧ (s.updPort p f).monitor = s.monitor := by
  refine ⟨?_, ?_, ?_, ?_, ?_, ?_, ?_, ?_, ?_, ?_, ?_, ?_, ?_, ?_⟩ <;> rfl

@[simp] theorem setNoticePort_fields (v : NoticePort) :
    (s.setNoticePort p v).pending = s.pending ∧ (s.setNoticePort p v).hold = s.hold
      ∧ (s.setNoticePort p v).supervisor = s.supervisor ∧ (s.setNoticePort p v).cause = s.cause
      ∧ (s.setNoticePort p v).params = s.params ∧ (s.setNoticePort p v).now = s.now
      ∧ (s.setNoticePort p v).ports = s.ports ∧ (s.setNoticePort p v).slots = s.slots
      ∧ (s.setNoticePort p v).lists = s.lists ∧ (s.setNoticePort p v).pointers = s.pointers
      ∧ (s.setNoticePort p v).entries = s.entries ∧ (s.setNoticePort p v).targets = s.targets
      ∧ (s.setNoticePort p v).engine = s.engine ∧ (s.setNoticePort p v).monitor = s.monitor := by
  refine ⟨?_, ?_, ?_, ?_, ?_, ?_, ?_, ?_, ?_, ?_, ?_, ?_, ?_, ?_⟩ <;> rfl

@[simp] theorem setSlot_fields (v : Slot) :
    (s.setSlot n v).pending = s.pending ∧ (s.setSlot n v).hold = s.hold ∧ (s.setSlot n v).supervisor = s.supervisor
      ∧ (s.setSlot n v).cause = s.cause ∧ (s.setSlot n v).params = s.params ∧ (s.setSlot n v).now = s.now
      ∧ (s.setSlot n v).ports = s.ports ∧ (s.setSlot n v).notices = s.notices ∧ (s.setSlot n v).lists = s.lists
      ∧ (s.setSlot n v).pointers = s.pointers ∧ (s.setSlot n v).entries = s.entries ∧ (s.setSlot n v).targets = s.targets
      ∧ (s.setSlot n v).engine = s.engine ∧ (s.setSlot n v).monitor = s.monitor := by
  refine ⟨?_, ?_, ?_, ?_, ?_, ?_, ?_, ?_, ?_, ?_, ?_, ?_, ?_, ?_⟩ <;> rfl

@[simp] theorem updRequest_fields (f : Request → Request) :
    (s.updRequest n f).pending = s.pending ∧ (s.updRequest n f).hold = s.hold
      ∧ (s.updRequest n f).supervisor = s.supervisor ∧ (s.updRequest n f).cause = s.cause
      ∧ (s.updRequest n f).params = s.params ∧ (s.updRequest n f).now = s.now ∧ (s.updRequest n f).ports = s.ports
      ∧ (s.updRequest n f).notices = s.notices ∧ (s.updRequest n f).lists = s.lists
      ∧ (s.updRequest n f).pointers = s.pointers ∧ (s.updRequest n f).entries = s.entries
      ∧ (s.updRequest n f).targets = s.targets ∧ (s.updRequest n f).engine = s.engine
      ∧ (s.updRequest n f).monitor = s.monitor := by
  refine ⟨?_, ?_, ?_, ?_, ?_, ?_, ?_, ?_, ?_, ?_, ?_, ?_, ?_, ?_⟩ <;> rfl

@[simp] theorem setList_fields (l : List SlotId) :
    (s.setList p l).pending = s.pending ∧ (s.setList p l).hold = s.hold ∧ (s.setList p l).supervisor = s.supervisor
      ∧ (s.setList p l).cause = s.cause ∧ (s.setList p l).params = s.params ∧ (s.setList p l).now = s.now
      ∧ (s.setList p l).ports = s.ports ∧ (s.setList p l).notices = s.notices ∧ (s.setList p l).slots = s.slots
      ∧ (s.setList p l).pointers = s.pointers ∧ (s.setList p l).entries = s.entries ∧ (s.setList p l).targets = s.targets
      ∧ (s.setList p l).engine = s.engine ∧ (s.setList p l).monitor = s.monitor := by
  refine ⟨?_, ?_, ?_, ?_, ?_, ?_, ?_, ?_, ?_, ?_, ?_, ?_, ?_, ?_⟩ <;> rfl

@[simp] theorem setEntry_fields (v : MirrorEntry) :
    (s.setEntry e v).pending = s.pending ∧ (s.setEntry e v).hold = s.hold ∧ (s.setEntry e v).supervisor = s.supervisor
      ∧ (s.setEntry e v).cause = s.cause ∧ (s.setEntry e v).params = s.params ∧ (s.setEntry e v).now = s.now
      ∧ (s.setEntry e v).ports = s.ports ∧ (s.setEntry e v).notices = s.notices ∧ (s.setEntry e v).slots = s.slots
      ∧ (s.setEntry e v).lists = s.lists ∧ (s.setEntry e v).pointers = s.pointers ∧ (s.setEntry e v).targets = s.targets
      ∧ (s.setEntry e v).engine = s.engine ∧ (s.setEntry e v).monitor = s.monitor := by
  refine ⟨?_, ?_, ?_, ?_, ?_, ?_, ?_, ?_, ?_, ?_, ?_, ?_, ?_, ?_⟩ <;> rfl

@[simp] theorem updEntry_fields (f : MirrorUse → MirrorUse) :
    (s.updEntry e f).pending = s.pending ∧ (s.updEntry e f).hold = s.hold ∧ (s.updEntry e f).supervisor = s.supervisor
      ∧ (s.updEntry e f).cause = s.cause ∧ (s.updEntry e f).params = s.params ∧ (s.updEntry e f).now = s.now
      ∧ (s.updEntry e f).ports = s.ports ∧ (s.updEntry e f).notices = s.notices ∧ (s.updEntry e f).slots = s.slots
      ∧ (s.updEntry e f).lists = s.lists ∧ (s.updEntry e f).pointers = s.pointers ∧ (s.updEntry e f).targets = s.targets
      ∧ (s.updEntry e f).engine = s.engine ∧ (s.updEntry e f).monitor = s.monitor := by
  refine ⟨?_, ?_, ?_, ?_, ?_, ?_, ?_, ?_, ?_, ?_, ?_, ?_, ?_, ?_⟩ <;> rfl

@[simp] theorem setTarget_fields (v : Option Target) :
    (s.setTarget t v).pending = s.pending ∧ (s.setTarget t v).hold = s.hold ∧ (s.setTarget t v).supervisor = s.supervisor
      ∧ (s.setTarget t v).cause = s.cause ∧ (s.setTarget t v).params = s.params ∧ (s.setTarget t v).now = s.now
      ∧ (s.setTarget t v).ports = s.ports ∧ (s.setTarget t v).notices = s.notices ∧ (s.setTarget t v).slots = s.slots
      ∧ (s.setTarget t v).lists = s.lists ∧ (s.setTarget t v).pointers = s.pointers
      ∧ (s.setTarget t v).entries = s.entries ∧ (s.setTarget t v).engine = s.engine
      ∧ (s.setTarget t v).monitor = s.monitor := by
  refine ⟨?_, ?_, ?_, ?_, ?_, ?_, ?_, ?_, ?_, ?_, ?_, ?_, ?_, ?_⟩ <;> rfl

@[simp] theorem updTarget_fields (f : Target → Target) :
    (s.updTarget t f).pending = s.pending ∧ (s.updTarget t f).hold = s.hold ∧ (s.updTarget t f).supervisor = s.supervisor
      ∧ (s.updTarget t f).cause = s.cause ∧ (s.updTarget t f).params = s.params ∧ (s.updTarget t f).now = s.now
      ∧ (s.updTarget t f).ports = s.ports ∧ (s.updTarget t f).notices = s.notices ∧ (s.updTarget t f).slots = s.slots
      ∧ (s.updTarget t f).lists = s.lists ∧ (s.updTarget t f).pointers = s.pointers
      ∧ (s.updTarget t f).entries = s.entries ∧ (s.updTarget t f).engine = s.engine
      ∧ (s.updTarget t f).monitor = s.monitor := by
  refine ⟨?_, ?_, ?_, ?_, ?_, ?_, ?_, ?_, ?_, ?_, ?_, ?_, ?_, ?_⟩ <;> rfl

@[simp] theorem setMonitor_fields (v : Monitor) :
    (s.setMonitor v).pending = s.pending ∧ (s.setMonitor v).hold = s.hold ∧ (s.setMonitor v).supervisor = s.supervisor
      ∧ (s.setMonitor v).cause = s.cause ∧ (s.setMonitor v).params = s.params ∧ (s.setMonitor v).now = s.now
      ∧ (s.setMonitor v).ports = s.ports ∧ (s.setMonitor v).notices = s.notices ∧ (s.setMonitor v).slots = s.slots
      ∧ (s.setMonitor v).lists = s.lists ∧ (s.setMonitor v).pointers = s.pointers ∧ (s.setMonitor v).entries = s.entries
      ∧ (s.setMonitor v).targets = s.targets ∧ (s.setMonitor v).engine = s.engine ∧ (s.setMonitor v).monitor = v := by
  refine ⟨?_, ?_, ?_, ?_, ?_, ?_, ?_, ?_, ?_, ?_, ?_, ?_, ?_, ?_, ?_⟩ <;> rfl

@[simp] theorem setEngine_fields (v : Engine) :
    (s.setEngine v).pending = s.pending ∧ (s.setEngine v).hold = s.hold ∧ (s.setEngine v).supervisor = s.supervisor
      ∧ (s.setEngine v).cause = s.cause ∧ (s.setEngine v).params = s.params ∧ (s.setEngine v).now = s.now
      ∧ (s.setEngine v).ports = s.ports ∧ (s.setEngine v).notices = s.notices ∧ (s.setEngine v).slots = s.slots
      ∧ (s.setEngine v).lists = s.lists ∧ (s.setEngine v).pointers = s.pointers ∧ (s.setEngine v).entries = s.entries
      ∧ (s.setEngine v).targets = s.targets ∧ (s.setEngine v).engine = v ∧ (s.setEngine v).monitor = s.monitor := by
  refine ⟨?_, ?_, ?_, ?_, ?_, ?_, ?_, ?_, ?_, ?_, ?_, ?_, ?_, ?_, ?_⟩ <;> rfl

/-! ## Records after an update -/

@[simp] theorem port_updPort (f : HostPort → HostPort) :
    (s.updPort p f).port q = if q = p then f (s.port p) else s.port q := by
  simp [State.port, State.updPort]

@[simp] theorem noticePort_setNoticePort (v : NoticePort) :
    (s.setNoticePort p v).noticePort q = if q = p then v else s.noticePort q := by
  simp [State.noticePort, State.setNoticePort]

@[simp] theorem list_setList (l : List SlotId) : (s.setList p l).list q = if q = p then l else s.list q := by
  simp [State.list, State.setList]

@[simp] theorem slot_setSlot (v : Slot) : (s.setSlot n v).slot m = if m = n then v else s.slot m := by
  exact get_set_vector _ _ _ _

@[simp] theorem request_setSlot (v : Slot) : (s.setSlot n v).request m = if m = n then v.held else s.request m := by
  simp only [State.request, slot_setSlot]
  split <;> rfl

@[simp] theorem issue_setSlot (v : Slot) :
    ((s.setSlot n v).slot m).issue = if m = n then v.issue else (s.slot m).issue := by
  rw [slot_setSlot]
  split <;> rfl

@[simp] theorem request_updRequest (f : Request → Request) :
    (s.updRequest n f).request m = if m = n then (s.request n).map f else s.request m := by
  simp [State.updRequest]

@[simp] theorem entry_setEntry (v : MirrorEntry) : (s.setEntry e v).entry d = if d = e then v else s.entry d := by
  exact get_set_vector _ _ _ _

@[simp] theorem entryUse_setEntry (v : MirrorEntry) :
    (s.setEntry e v).entryUse d = if d = e then v.use else s.entryUse d := by
  simp only [State.entryUse, entry_setEntry]
  split <;> rfl

@[simp] theorem entryUse_updEntry (f : MirrorUse → MirrorUse) :
    (s.updEntry e f).entryUse d = if d = e then (s.entryUse e).map f else s.entryUse d := by
  simp [State.updEntry]

@[simp] theorem issue_updEntry (f : MirrorUse → MirrorUse) : ((s.updEntry e f).entry d).issue = (s.entry d).issue := by
  rw [State.updEntry, entry_setEntry]
  split
  · next h => rw [h]
  · rfl

@[simp] theorem target_setTarget (v : Option Target) : (s.setTarget t v).target u = if u = t then v else s.target u := by
  exact get_set_vector _ _ _ _

@[simp] theorem target_updTarget (f : Target → Target) :
    (s.updTarget t f).target u = if u = t then (s.target t).map f else s.target u := by
  simp [State.updTarget]

/-! ## Records that read one field -/

theorem port_of_ports {a b : State} (h : a.ports = b.ports) : a.port = b.port := by funext r; simp [State.port, h]
theorem noticePort_of_notices {a b : State} (h : a.notices = b.notices) : a.noticePort = b.noticePort := by
  funext r; simp [State.noticePort, h]
theorem slot_of_slots {a b : State} (h : a.slots = b.slots) : a.slot = b.slot := by funext r; simp [State.slot, h]
theorem request_of_slots {a b : State} (h : a.slots = b.slots) : a.request = b.request := by
  funext r; simp [State.request, State.slot, h]
theorem list_of_lists {a b : State} (h : a.lists = b.lists) : a.list = b.list := by funext r; simp [State.list, h]
theorem entry_of_entries {a b : State} (h : a.entries = b.entries) : a.entry = b.entry := by
  funext r; simp [State.entry, h]
theorem entryUse_of_entries {a b : State} (h : a.entries = b.entries) : a.entryUse = b.entryUse := by
  funext r; simp [State.entryUse, State.entry, h]
theorem target_of_targets {a b : State} (h : a.targets = b.targets) : a.target = b.target := by
  funext r; simp [State.target, h]
theorem findTarget_of_targets {a b : State} (h : a.targets = b.targets) : a.findTarget = b.findTarget := by
  funext r; simp [State.findTarget, State.target, h]
theorem targetAt_of_targets {a b : State} (h : a.targets = b.targets) : a.targetAt = b.targetAt := by
  funext r; simp [State.targetAt, findTarget_of_targets h, target_of_targets h]
theorem lookup_of_targets {a b : State} (h : a.targets = b.targets) : a.lookup = b.lookup := by
  funext r; simp [State.lookup, findTarget_of_targets h, target_of_targets h]

end Machine
end Sys2Proof
end

