-- ==== Sys2Proof/Laws/Frames.lean ====
section
/-! SUPPORT. The frame of each shared operation: the fields of the state that it leaves as they are. Each lemma is a
conjunction of equations, one per field, which simp uses one by one. -/

namespace Sys2Proof.Machine

variable (s : State)

/-- What every step of a fold keeps, the fold keeps. -/
theorem foldl_keep {α β σ : Type} (k : σ → α) {f : σ → β → σ} (h : ∀ x b, k (f x b) = k x) (l : List β) (x : σ) :
    k (l.foldl f x) = k x := by
  induction l generalizing x with
  | nil => rfl
  | cons b l ih => rw [List.foldl_cons, ih, h]

@[simp] theorem respond_frame (p : Port) (r : Reply) :
    (s.respond p r).pending = s.pending ∧ (s.respond p r).hold = s.hold ∧ (s.respond p r).supervisor = s.supervisor
      ∧ (s.respond p r).cause = s.cause ∧ (s.respond p r).params = s.params ∧ (s.respond p r).now = s.now
      ∧ (s.respond p r).notices = s.notices ∧ (s.respond p r).slots = s.slots ∧ (s.respond p r).lists = s.lists
      ∧ (s.respond p r).pointers = s.pointers ∧ (s.respond p r).entries = s.entries
      ∧ (s.respond p r).targets = s.targets ∧ (s.respond p r).engine = s.engine ∧ (s.respond p r).monitor = s.monitor := by
  simp [State.respond]

@[simp] theorem shiftOut_frame (p : Port) (b : List Byte) :
    (s.shiftOut p b).pending = s.pending ∧ (s.shiftOut p b).hold = s.hold
      ∧ (s.shiftOut p b).supervisor = s.supervisor ∧ (s.shiftOut p b).cause = s.cause
      ∧ (s.shiftOut p b).params = s.params ∧ (s.shiftOut p b).now = s.now ∧ (s.shiftOut p b).notices = s.notices
      ∧ (s.shiftOut p b).slots = s.slots ∧ (s.shiftOut p b).lists = s.lists ∧ (s.shiftOut p b).pointers = s.pointers
      ∧ (s.shiftOut p b).entries = s.entries ∧ (s.shiftOut p b).targets = s.targets
      ∧ (s.shiftOut p b).engine = s.engine ∧ (s.shiftOut p b).monitor = s.monitor := by
  simp [State.shiftOut]

@[simp] theorem offer_frame (n : Notice) (p : Port) :
    (s.offer n p).pending = s.pending ∧ (s.offer n p).hold = s.hold ∧ (s.offer n p).supervisor = s.supervisor
      ∧ (s.offer n p).cause = s.cause ∧ (s.offer n p).params = s.params ∧ (s.offer n p).now = s.now
      ∧ (s.offer n p).ports = s.ports ∧ (s.offer n p).slots = s.slots ∧ (s.offer n p).lists = s.lists
      ∧ (s.offer n p).pointers = s.pointers ∧ (s.offer n p).entries = s.entries ∧ (s.offer n p).targets = s.targets
      ∧ (s.offer n p).engine = s.engine ∧ (s.offer n p).monitor = s.monitor := by
  simp only [State.offer]
  (repeat' split) <;> simp

@[simp] theorem offerTo_frame (n : Notice) (ps : List Port) :
    (s.offerTo n ps).pending = s.pending ∧ (s.offerTo n ps).hold = s.hold
      ∧ (s.offerTo n ps).supervisor = s.supervisor ∧ (s.offerTo n ps).cause = s.cause
      ∧ (s.offerTo n ps).params = s.params ∧ (s.offerTo n ps).now = s.now ∧ (s.offerTo n ps).ports = s.ports
      ∧ (s.offerTo n ps).slots = s.slots ∧ (s.offerTo n ps).lists = s.lists ∧ (s.offerTo n ps).pointers = s.pointers
      ∧ (s.offerTo n ps).entries = s.entries ∧ (s.offerTo n ps).targets = s.targets
      ∧ (s.offerTo n ps).engine = s.engine ∧ (s.offerTo n ps).monitor = s.monitor := by
  refine ⟨foldl_keep State.pending (fun x b => by simp) _ _,
    foldl_keep State.hold (fun x b => by simp) _ _,
    foldl_keep State.supervisor (fun x b => by simp) _ _,
    foldl_keep State.cause (fun x b => by simp) _ _,
    foldl_keep State.params (fun x b => by simp) _ _,
    foldl_keep State.now (fun x b => by simp) _ _,
    foldl_keep State.ports (fun x b => by simp) _ _,
    foldl_keep State.slots (fun x b => by simp) _ _,
    foldl_keep State.lists (fun x b => by simp) _ _,
    foldl_keep State.pointers (fun x b => by simp) _ _,
    foldl_keep State.entries (fun x b => by simp) _ _,
    foldl_keep State.targets (fun x b => by simp) _ _,
    foldl_keep State.engine (fun x b => by simp) _ _,
    foldl_keep State.monitor (fun x b => by simp) _ _⟩

@[simp] theorem offerMirrorState_frame (e : EntryId) (u : MirrorUse) (m : MirrorState) :
    (s.offerMirrorState e u m).pending = s.pending ∧ (s.offerMirrorState e u m).hold = s.hold
      ∧ (s.offerMirrorState e u m).supervisor = s.supervisor ∧ (s.offerMirrorState e u m).cause = s.cause
      ∧ (s.offerMirrorState e u m).params = s.params ∧ (s.offerMirrorState e u m).now = s.now
      ∧ (s.offerMirrorState e u m).ports = s.ports ∧ (s.offerMirrorState e u m).slots = s.slots
      ∧ (s.offerMirrorState e u m).lists = s.lists ∧ (s.offerMirrorState e u m).pointers = s.pointers
      ∧ (s.offerMirrorState e u m).entries = s.entries ∧ (s.offerMirrorState e u m).targets = s.targets
      ∧ (s.offerMirrorState e u m).engine = s.engine ∧ (s.offerMirrorState e u m).monitor = s.monitor := by
  simp [State.offerMirrorState]

@[simp] theorem offerTargetState_frame (t : TargetId) :
    (s.offerTargetState t).pending = s.pending ∧ (s.offerTargetState t).hold = s.hold
      ∧ (s.offerTargetState t).supervisor = s.supervisor ∧ (s.offerTargetState t).cause = s.cause
      ∧ (s.offerTargetState t).params = s.params ∧ (s.offerTargetState t).now = s.now
      ∧ (s.offerTargetState t).ports = s.ports ∧ (s.offerTargetState t).slots = s.slots
      ∧ (s.offerTargetState t).lists = s.lists ∧ (s.offerTargetState t).pointers = s.pointers
      ∧ (s.offerTargetState t).entries = s.entries ∧ (s.offerTargetState t).targets = s.targets
      ∧ (s.offerTargetState t).engine = s.engine ∧ (s.offerTargetState t).monitor = s.monitor := by
  simp only [State.offerTargetState]
  (repeat' split) <;> simp

@[simp] theorem unlist_frame (p : Port) (n : SlotId) :
    (s.unlist p n).pending = s.pending ∧ (s.unlist p n).hold = s.hold ∧ (s.unlist p n).supervisor = s.supervisor
      ∧ (s.unlist p n).cause = s.cause ∧ (s.unlist p n).params = s.params ∧ (s.unlist p n).now = s.now
      ∧ (s.unlist p n).ports = s.ports ∧ (s.unlist p n).notices = s.notices ∧ (s.unlist p n).slots = s.slots
      ∧ (s.unlist p n).pointers = s.pointers ∧ (s.unlist p n).entries = s.entries
      ∧ (s.unlist p n).targets = s.targets ∧ (s.unlist p n).engine = s.engine ∧ (s.unlist p n).monitor = s.monitor := by
  simp [State.unlist]

@[simp] theorem freeSlotOf_frame (n : SlotId) :
    (s.freeSlotOf n).pending = s.pending ∧ (s.freeSlotOf n).hold = s.hold
      ∧ (s.freeSlotOf n).supervisor = s.supervisor ∧ (s.freeSlotOf n).cause = s.cause
      ∧ (s.freeSlotOf n).params = s.params ∧ (s.freeSlotOf n).now = s.now ∧ (s.freeSlotOf n).ports = s.ports
      ∧ (s.freeSlotOf n).notices = s.notices ∧ (s.freeSlotOf n).pointers = s.pointers
      ∧ (s.freeSlotOf n).entries = s.entries ∧ (s.freeSlotOf n).targets = s.targets
      ∧ (s.freeSlotOf n).engine = s.engine ∧ (s.freeSlotOf n).monitor = s.monitor := by
  simp only [State.freeSlotOf]
  (repeat' split) <;> simp

@[simp] theorem allocate_frame (p : Port) (n : SlotId) (d : Descriptor) :
    (s.allocate p n d).pending = s.pending ∧ (s.allocate p n d).hold = s.hold
      ∧ (s.allocate p n d).supervisor = s.supervisor ∧ (s.allocate p n d).cause = s.cause
      ∧ (s.allocate p n d).params = s.params ∧ (s.allocate p n d).now = s.now ∧ (s.allocate p n d).ports = s.ports
      ∧ (s.allocate p n d).notices = s.notices ∧ (s.allocate p n d).pointers = s.pointers
      ∧ (s.allocate p n d).entries = s.entries ∧ (s.allocate p n d).targets = s.targets
      ∧ (s.allocate p n d).engine = s.engine ∧ (s.allocate p n d).monitor = s.monitor := by
  simp [State.allocate]

@[simp] theorem finishSlot_frame (n : SlotId) (r : Request) (x : Result) :
    (s.finishSlot n r x).pending = s.pending ∧ (s.finishSlot n r x).hold = s.hold
      ∧ (s.finishSlot n r x).supervisor = s.supervisor ∧ (s.finishSlot n r x).cause = s.cause
      ∧ (s.finishSlot n r x).params = s.params ∧ (s.finishSlot n r x).now = s.now
      ∧ (s.finishSlot n r x).ports = s.ports ∧ (s.finishSlot n r x).notices = s.notices
      ∧ (s.finishSlot n r x).pointers = s.pointers ∧ (s.finishSlot n r x).entries = s.entries
      ∧ (s.finishSlot n r x).targets = s.targets ∧ (s.finishSlot n r x).engine = s.engine
      ∧ (s.finishSlot n r x).monitor = s.monitor := by
  simp [State.finishSlot]

@[simp] theorem completeSlot_frame (n : SlotId) (x : Result) :
    (s.completeSlot n x).pending = s.pending ∧ (s.completeSlot n x).hold = s.hold
      ∧ (s.completeSlot n x).supervisor = s.supervisor ∧ (s.completeSlot n x).cause = s.cause
      ∧ (s.completeSlot n x).params = s.params ∧ (s.completeSlot n x).now = s.now
      ∧ (s.completeSlot n x).ports = s.ports ∧ (s.completeSlot n x).pointers = s.pointers
      ∧ (s.completeSlot n x).entries = s.entries ∧ (s.completeSlot n x).targets = s.targets
      ∧ (s.completeSlot n x).engine = s.engine ∧ (s.completeSlot n x).monitor = s.monitor := by
  simp only [State.completeSlot]
  (repeat' split) <;> simp

@[simp] theorem completeQueued_frame (p : Port) (c : Request → Bool) (o : TransferOutcome) :
    (s.completeQueued p c o).pending = s.pending ∧ (s.completeQueued p c o).hold = s.hold
      ∧ (s.completeQueued p c o).supervisor = s.supervisor ∧ (s.completeQueued p c o).cause = s.cause
      ∧ (s.completeQueued p c o).params = s.params ∧ (s.completeQueued p c o).now = s.now
      ∧ (s.completeQueued p c o).ports = s.ports ∧ (s.completeQueued p c o).pointers = s.pointers
      ∧ (s.completeQueued p c o).entries = s.entries ∧ (s.completeQueued p c o).targets = s.targets
      ∧ (s.completeQueued p c o).engine = s.engine ∧ (s.completeQueued p c o).monitor = s.monitor := by
  refine ⟨foldl_keep State.pending (fun x b => by simp) _ _,
    foldl_keep State.hold (fun x b => by simp) _ _,
    foldl_keep State.supervisor (fun x b => by simp) _ _,
    foldl_keep State.cause (fun x b => by simp) _ _,
    foldl_keep State.params (fun x b => by simp) _ _,
    foldl_keep State.now (fun x b => by simp) _ _,
    foldl_keep State.ports (fun x b => by simp) _ _,
    foldl_keep State.pointers (fun x b => by simp) _ _,
    foldl_keep State.entries (fun x b => by simp) _ _,
    foldl_keep State.targets (fun x b => by simp) _ _,
    foldl_keep State.engine (fun x b => by simp) _ _,
    foldl_keep State.monitor (fun x b => by simp) _ _⟩

@[simp] theorem completeQueuedAll_frame (c : Request → Bool) (o : TransferOutcome) :
    (s.completeQueuedAll c o).pending = s.pending ∧ (s.completeQueuedAll c o).hold = s.hold
      ∧ (s.completeQueuedAll c o).supervisor = s.supervisor ∧ (s.completeQueuedAll c o).cause = s.cause
      ∧ (s.completeQueuedAll c o).params = s.params ∧ (s.completeQueuedAll c o).now = s.now
      ∧ (s.completeQueuedAll c o).ports = s.ports ∧ (s.completeQueuedAll c o).pointers = s.pointers
      ∧ (s.completeQueuedAll c o).entries = s.entries ∧ (s.completeQueuedAll c o).targets = s.targets
      ∧ (s.completeQueuedAll c o).engine = s.engine ∧ (s.completeQueuedAll c o).monitor = s.monitor := by
  refine ⟨foldl_keep State.pending (fun x b => by simp) _ _,
    foldl_keep State.hold (fun x b => by simp) _ _,
    foldl_keep State.supervisor (fun x b => by simp) _ _,
    foldl_keep State.cause (fun x b => by simp) _ _,
    foldl_keep State.params (fun x b => by simp) _ _,
    foldl_keep State.now (fun x b => by simp) _ _,
    foldl_keep State.ports (fun x b => by simp) _ _,
    foldl_keep State.pointers (fun x b => by simp) _ _,
    foldl_keep State.entries (fun x b => by simp) _ _,
    foldl_keep State.targets (fun x b => by simp) _ _,
    foldl_keep State.engine (fun x b => by simp) _ _,
    foldl_keep State.monitor (fun x b => by simp) _ _⟩

@[simp] theorem endSlot_frame (p : Port) (n : SlotId) :
    (s.endSlot p n).pending = s.pending ∧ (s.endSlot p n).hold = s.hold ∧ (s.endSlot p n).supervisor = s.supervisor
      ∧ (s.endSlot p n).cause = s.cause ∧ (s.endSlot p n).params = s.params ∧ (s.endSlot p n).now = s.now
      ∧ (s.endSlot p n).ports = s.ports ∧ (s.endSlot p n).notices = s.notices ∧ (s.endSlot p n).pointers = s.pointers
      ∧ (s.endSlot p n).entries = s.entries ∧ (s.endSlot p n).targets = s.targets ∧ (s.endSlot p n).engine = s.engine
      ∧ (s.endSlot p n).monitor = s.monitor := by
  simp only [State.endSlot]
  (repeat' split) <;> simp

@[simp] theorem endSlots_frame (p : Port) :
    (s.endSlots p).pending = s.pending ∧ (s.endSlots p).hold = s.hold ∧ (s.endSlots p).supervisor = s.supervisor
      ∧ (s.endSlots p).cause = s.cause ∧ (s.endSlots p).params = s.params ∧ (s.endSlots p).now = s.now
      ∧ (s.endSlots p).ports = s.ports ∧ (s.endSlots p).notices = s.notices ∧ (s.endSlots p).pointers = s.pointers
      ∧ (s.endSlots p).entries = s.entries ∧ (s.endSlots p).targets = s.targets ∧ (s.endSlots p).engine = s.engine
      ∧ (s.endSlots p).monitor = s.monitor := by
  refine ⟨foldl_keep State.pending (fun x b => by simp) _ _,
    foldl_keep State.hold (fun x b => by simp) _ _,
    foldl_keep State.supervisor (fun x b => by simp) _ _,
    foldl_keep State.cause (fun x b => by simp) _ _,
    foldl_keep State.params (fun x b => by simp) _ _,
    foldl_keep State.now (fun x b => by simp) _ _,
    foldl_keep State.ports (fun x b => by simp) _ _,
    foldl_keep State.notices (fun x b => by simp) _ _,
    foldl_keep State.pointers (fun x b => by simp) _ _,
    foldl_keep State.entries (fun x b => by simp) _ _,
    foldl_keep State.targets (fun x b => by simp) _ _,
    foldl_keep State.engine (fun x b => by simp) _ _,
    foldl_keep State.monitor (fun x b => by simp) _ _⟩

@[simp] theorem makePollDue_frame (e : EntryId) (due : Nat) :
    (s.makePollDue e due).pending = s.pending ∧ (s.makePollDue e due).hold = s.hold
      ∧ (s.makePollDue e due).supervisor = s.supervisor ∧ (s.makePollDue e due).cause = s.cause
      ∧ (s.makePollDue e due).params = s.params ∧ (s.makePollDue e due).now = s.now
      ∧ (s.makePollDue e due).ports = s.ports ∧ (s.makePollDue e due).notices = s.notices
      ∧ (s.makePollDue e due).slots = s.slots ∧ (s.makePollDue e due).lists = s.lists
      ∧ (s.makePollDue e due).pointers = s.pointers ∧ (s.makePollDue e due).targets = s.targets
      ∧ (s.makePollDue e due).engine = s.engine ∧ (s.makePollDue e due).monitor = s.monitor := by
  simp [State.makePollDue]

@[simp] theorem recomputeDue_frame (e : EntryId) :
    (s.recomputeDue e).pending = s.pending ∧ (s.recomputeDue e).hold = s.hold
      ∧ (s.recomputeDue e).supervisor = s.supervisor ∧ (s.recomputeDue e).cause = s.cause
      ∧ (s.recomputeDue e).params = s.params ∧ (s.recomputeDue e).now = s.now ∧ (s.recomputeDue e).ports = s.ports
      ∧ (s.recomputeDue e).notices = s.notices ∧ (s.recomputeDue e).slots = s.slots
      ∧ (s.recomputeDue e).lists = s.lists ∧ (s.recomputeDue e).pointers = s.pointers
      ∧ (s.recomputeDue e).targets = s.targets ∧ (s.recomputeDue e).engine = s.engine
      ∧ (s.recomputeDue e).monitor = s.monitor := by
  simp only [State.recomputeDue]
  (repeat' split) <;> simp

@[simp] theorem goStale_frame (e : EntryId) (u : MirrorUse) :
    (s.goStale e u).pending = s.pending ∧ (s.goStale e u).hold = s.hold ∧ (s.goStale e u).supervisor = s.supervisor
      ∧ (s.goStale e u).cause = s.cause ∧ (s.goStale e u).params = s.params ∧ (s.goStale e u).now = s.now
      ∧ (s.goStale e u).ports = s.ports ∧ (s.goStale e u).slots = s.slots ∧ (s.goStale e u).lists = s.lists
      ∧ (s.goStale e u).pointers = s.pointers ∧ (s.goStale e u).targets = s.targets
      ∧ (s.goStale e u).engine = s.engine ∧ (s.goStale e u).monitor = s.monitor := by
  simp [State.goStale]

@[simp] theorem recheckStale_frame (e : EntryId) :
    (s.recheckStale e).pending = s.pending ∧ (s.recheckStale e).hold = s.hold
      ∧ (s.recheckStale e).supervisor = s.supervisor ∧ (s.recheckStale e).cause = s.cause
      ∧ (s.recheckStale e).params = s.params ∧ (s.recheckStale e).now = s.now ∧ (s.recheckStale e).ports = s.ports
      ∧ (s.recheckStale e).slots = s.slots ∧ (s.recheckStale e).lists = s.lists
      ∧ (s.recheckStale e).pointers = s.pointers ∧ (s.recheckStale e).targets = s.targets
      ∧ (s.recheckStale e).engine = s.engine ∧ (s.recheckStale e).monitor = s.monitor := by
  simp only [State.recheckStale]
  (repeat' split) <;> simp

@[simp] theorem recheckAllStale_frame :
    (s.recheckAllStale).pending = s.pending ∧ (s.recheckAllStale).hold = s.hold
      ∧ (s.recheckAllStale).supervisor = s.supervisor ∧ (s.recheckAllStale).cause = s.cause
      ∧ (s.recheckAllStale).params = s.params ∧ (s.recheckAllStale).now = s.now ∧ (s.recheckAllStale).ports = s.ports
      ∧ (s.recheckAllStale).slots = s.slots ∧ (s.recheckAllStale).lists = s.lists
      ∧ (s.recheckAllStale).pointers = s.pointers ∧ (s.recheckAllStale).targets = s.targets
      ∧ (s.recheckAllStale).engine = s.engine ∧ (s.recheckAllStale).monitor = s.monitor := by
  refine ⟨foldl_keep State.pending (fun x b => by simp) _ _,
    foldl_keep State.hold (fun x b => by simp) _ _,
    foldl_keep State.supervisor (fun x b => by simp) _ _,
    foldl_keep State.cause (fun x b => by simp) _ _,
    foldl_keep State.params (fun x b => by simp) _ _,
    foldl_keep State.now (fun x b => by simp) _ _,
    foldl_keep State.ports (fun x b => by simp) _ _,
    foldl_keep State.slots (fun x b => by simp) _ _,
    foldl_keep State.lists (fun x b => by simp) _ _,
    foldl_keep State.pointers (fun x b => by simp) _ _,
    foldl_keep State.targets (fun x b => by simp) _ _,
    foldl_keep State.engine (fun x b => by simp) _ _,
    foldl_keep State.monitor (fun x b => by simp) _ _⟩

@[simp] theorem setSponsors_frame (e : EntryId) (x : PerPort (Option Sponsor)) :
    (s.setSponsors e x).pending = s.pending ∧ (s.setSponsors e x).hold = s.hold
      ∧ (s.setSponsors e x).supervisor = s.supervisor ∧ (s.setSponsors e x).cause = s.cause
      ∧ (s.setSponsors e x).params = s.params ∧ (s.setSponsors e x).now = s.now ∧ (s.setSponsors e x).ports = s.ports
      ∧ (s.setSponsors e x).slots = s.slots ∧ (s.setSponsors e x).lists = s.lists
      ∧ (s.setSponsors e x).pointers = s.pointers ∧ (s.setSponsors e x).targets = s.targets
      ∧ (s.setSponsors e x).engine = s.engine ∧ (s.setSponsors e x).monitor = s.monitor := by
  simp only [State.setSponsors]
  (repeat' split) <;> simp

@[simp] theorem freeEntryOf_frame (e : EntryId) :
    (s.freeEntryOf e).pending = s.pending ∧ (s.freeEntryOf e).hold = s.hold
      ∧ (s.freeEntryOf e).supervisor = s.supervisor ∧ (s.freeEntryOf e).cause = s.cause
      ∧ (s.freeEntryOf e).params = s.params ∧ (s.freeEntryOf e).now = s.now ∧ (s.freeEntryOf e).ports = s.ports
      ∧ (s.freeEntryOf e).notices = s.notices ∧ (s.freeEntryOf e).slots = s.slots ∧ (s.freeEntryOf e).lists = s.lists
      ∧ (s.freeEntryOf e).pointers = s.pointers ∧ (s.freeEntryOf e).targets = s.targets
      ∧ (s.freeEntryOf e).engine = s.engine ∧ (s.freeEntryOf e).monitor = s.monitor := by
  simp [State.freeEntryOf]

@[simp] theorem removeSponsor_frame (e : EntryId) (p : Port) :
    (s.removeSponsor e p).pending = s.pending ∧ (s.removeSponsor e p).hold = s.hold
      ∧ (s.removeSponsor e p).supervisor = s.supervisor ∧ (s.removeSponsor e p).cause = s.cause
      ∧ (s.removeSponsor e p).params = s.params ∧ (s.removeSponsor e p).now = s.now
      ∧ (s.removeSponsor e p).ports = s.ports ∧ (s.removeSponsor e p).slots = s.slots
      ∧ (s.removeSponsor e p).lists = s.lists ∧ (s.removeSponsor e p).pointers = s.pointers
      ∧ (s.removeSponsor e p).targets = s.targets ∧ (s.removeSponsor e p).engine = s.engine
      ∧ (s.removeSponsor e p).monitor = s.monitor := by
  simp only [State.removeSponsor]
  (repeat' split) <;> simp

@[simp] theorem endSponsorships_frame (p : Port) :
    (s.endSponsorships p).pending = s.pending ∧ (s.endSponsorships p).hold = s.hold
      ∧ (s.endSponsorships p).supervisor = s.supervisor ∧ (s.endSponsorships p).cause = s.cause
      ∧ (s.endSponsorships p).params = s.params ∧ (s.endSponsorships p).now = s.now
      ∧ (s.endSponsorships p).ports = s.ports ∧ (s.endSponsorships p).slots = s.slots
      ∧ (s.endSponsorships p).lists = s.lists ∧ (s.endSponsorships p).pointers = s.pointers
      ∧ (s.endSponsorships p).targets = s.targets ∧ (s.endSponsorships p).engine = s.engine
      ∧ (s.endSponsorships p).monitor = s.monitor := by
  refine ⟨foldl_keep State.pending (fun x b => by simp) _ _,
    foldl_keep State.hold (fun x b => by simp) _ _,
    foldl_keep State.supervisor (fun x b => by simp) _ _,
    foldl_keep State.cause (fun x b => by simp) _ _,
    foldl_keep State.params (fun x b => by simp) _ _,
    foldl_keep State.now (fun x b => by simp) _ _,
    foldl_keep State.ports (fun x b => by simp) _ _,
    foldl_keep State.slots (fun x b => by simp) _ _,
    foldl_keep State.lists (fun x b => by simp) _ _,
    foldl_keep State.pointers (fun x b => by simp) _ _,
    foldl_keep State.targets (fun x b => by simp) _ _,
    foldl_keep State.engine (fun x b => by simp) _ _,
    foldl_keep State.monitor (fun x b => by simp) _ _⟩

@[simp] theorem takeEntry_frame (e : EntryId) (p : Port) (k : Key) (sp : Sponsor) (b : Bool) :
    (s.takeEntry e p k sp b).pending = s.pending ∧ (s.takeEntry e p k sp b).hold = s.hold
      ∧ (s.takeEntry e p k sp b).supervisor = s.supervisor ∧ (s.takeEntry e p k sp b).cause = s.cause
      ∧ (s.takeEntry e p k sp b).params = s.params ∧ (s.takeEntry e p k sp b).now = s.now
      ∧ (s.takeEntry e p k sp b).ports = s.ports ∧ (s.takeEntry e p k sp b).notices = s.notices
      ∧ (s.takeEntry e p k sp b).slots = s.slots ∧ (s.takeEntry e p k sp b).lists = s.lists
      ∧ (s.takeEntry e p k sp b).pointers = s.pointers ∧ (s.takeEntry e p k sp b).targets = s.targets
      ∧ (s.takeEntry e p k sp b).engine = s.engine ∧ (s.takeEntry e p k sp b).monitor = s.monitor := by
  simp [State.takeEntry]

@[simp] theorem joinEntry_frame (e : EntryId) (p : Port) (sp : Sponsor) :
    (s.joinEntry e p sp).pending = s.pending ∧ (s.joinEntry e p sp).hold = s.hold
      ∧ (s.joinEntry e p sp).supervisor = s.supervisor ∧ (s.joinEntry e p sp).cause = s.cause
      ∧ (s.joinEntry e p sp).params = s.params ∧ (s.joinEntry e p sp).now = s.now
      ∧ (s.joinEntry e p sp).ports = s.ports ∧ (s.joinEntry e p sp).slots = s.slots
      ∧ (s.joinEntry e p sp).lists = s.lists ∧ (s.joinEntry e p sp).pointers = s.pointers
      ∧ (s.joinEntry e p sp).targets = s.targets ∧ (s.joinEntry e p sp).engine = s.engine
      ∧ (s.joinEntry e p sp).monitor = s.monitor := by
  simp only [State.joinEntry]
  (repeat' split) <;> simp

@[simp] theorem startPoll_frame (e : EntryId) (m : Maint) :
    (s.startPoll e m).pending = s.pending ∧ (s.startPoll e m).hold = s.hold
      ∧ (s.startPoll e m).supervisor = s.supervisor ∧ (s.startPoll e m).cause = s.cause
      ∧ (s.startPoll e m).params = s.params ∧ (s.startPoll e m).now = s.now ∧ (s.startPoll e m).ports = s.ports
      ∧ (s.startPoll e m).notices = s.notices ∧ (s.startPoll e m).slots = s.slots ∧ (s.startPoll e m).lists = s.lists
      ∧ (s.startPoll e m).pointers = s.pointers ∧ (s.startPoll e m).targets = s.targets
      ∧ (s.startPoll e m).engine = s.engine ∧ (s.startPoll e m).monitor = s.monitor := by
  simp [State.startPoll]

@[simp] theorem storeValue_frame (e : EntryId) (d : List Byte) (b : Bool) :
    (s.storeValue e d b).pending = s.pending ∧ (s.storeValue e d b).hold = s.hold
      ∧ (s.storeValue e d b).supervisor = s.supervisor ∧ (s.storeValue e d b).cause = s.cause
      ∧ (s.storeValue e d b).params = s.params ∧ (s.storeValue e d b).now = s.now
      ∧ (s.storeValue e d b).ports = s.ports ∧ (s.storeValue e d b).notices = s.notices
      ∧ (s.storeValue e d b).slots = s.slots ∧ (s.storeValue e d b).lists = s.lists
      ∧ (s.storeValue e d b).pointers = s.pointers ∧ (s.storeValue e d b).targets = s.targets
      ∧ (s.storeValue e d b).engine = s.engine ∧ (s.storeValue e d b).monitor = s.monitor := by
  simp [State.storeValue]

@[simp] theorem pollOk_frame (e : EntryId) (u : MirrorUse) (d : List Byte) :
    (s.pollOk e u d).pending = s.pending ∧ (s.pollOk e u d).hold = s.hold
      ∧ (s.pollOk e u d).supervisor = s.supervisor ∧ (s.pollOk e u d).cause = s.cause
      ∧ (s.pollOk e u d).params = s.params ∧ (s.pollOk e u d).now = s.now ∧ (s.pollOk e u d).ports = s.ports
      ∧ (s.pollOk e u d).slots = s.slots ∧ (s.pollOk e u d).lists = s.lists ∧ (s.pollOk e u d).pointers = s.pointers
      ∧ (s.pollOk e u d).targets = s.targets ∧ (s.pollOk e u d).engine = s.engine
      ∧ (s.pollOk e u d).monitor = s.monitor := by
  simp only [State.pollOk]
  (repeat' split) <;> simp

@[simp] theorem dueAfterPoll_frame (e : EntryId) :
    (s.dueAfterPoll e).pending = s.pending ∧ (s.dueAfterPoll e).hold = s.hold
      ∧ (s.dueAfterPoll e).supervisor = s.supervisor ∧ (s.dueAfterPoll e).cause = s.cause
      ∧ (s.dueAfterPoll e).params = s.params ∧ (s.dueAfterPoll e).now = s.now ∧ (s.dueAfterPoll e).ports = s.ports
      ∧ (s.dueAfterPoll e).notices = s.notices ∧ (s.dueAfterPoll e).slots = s.slots
      ∧ (s.dueAfterPoll e).lists = s.lists ∧ (s.dueAfterPoll e).pointers = s.pointers
      ∧ (s.dueAfterPoll e).targets = s.targets ∧ (s.dueAfterPoll e).engine = s.engine
      ∧ (s.dueAfterPoll e).monitor = s.monitor := by
  simp only [State.dueAfterPoll]
  (repeat' split) <;> simp

@[simp] theorem completePoll_frame (e : EntryId) (i : Byte) (o : TransferOutcome) (d : List Byte) :
    (s.completePoll e i o d).pending = s.pending ∧ (s.completePoll e i o d).hold = s.hold
      ∧ (s.completePoll e i o d).supervisor = s.supervisor ∧ (s.completePoll e i o d).cause = s.cause
      ∧ (s.completePoll e i o d).params = s.params ∧ (s.completePoll e i o d).now = s.now
      ∧ (s.completePoll e i o d).ports = s.ports ∧ (s.completePoll e i o d).slots = s.slots
      ∧ (s.completePoll e i o d).lists = s.lists ∧ (s.completePoll e i o d).pointers = s.pointers
      ∧ (s.completePoll e i o d).targets = s.targets ∧ (s.completePoll e i o d).engine = s.engine
      ∧ (s.completePoll e i o d).monitor = s.monitor := by
  simp only [State.completePoll]
  (repeat' split) <;> simp

@[simp] theorem failEntry_frame (a : Byte) (e : EntryId) :
    (s.failEntry a e).pending = s.pending ∧ (s.failEntry a e).hold = s.hold
      ∧ (s.failEntry a e).supervisor = s.supervisor ∧ (s.failEntry a e).cause = s.cause
      ∧ (s.failEntry a e).params = s.params ∧ (s.failEntry a e).now = s.now ∧ (s.failEntry a e).ports = s.ports
      ∧ (s.failEntry a e).slots = s.slots ∧ (s.failEntry a e).lists = s.lists
      ∧ (s.failEntry a e).pointers = s.pointers ∧ (s.failEntry a e).targets = s.targets
      ∧ (s.failEntry a e).engine = s.engine ∧ (s.failEntry a e).monitor = s.monitor := by
  simp only [State.failEntry]
  (repeat' split) <;> simp

@[simp] theorem failEntries_frame (a : Byte) :
    (s.failEntries a).pending = s.pending ∧ (s.failEntries a).hold = s.hold
      ∧ (s.failEntries a).supervisor = s.supervisor ∧ (s.failEntries a).cause = s.cause
      ∧ (s.failEntries a).params = s.params ∧ (s.failEntries a).now = s.now ∧ (s.failEntries a).ports = s.ports
      ∧ (s.failEntries a).slots = s.slots ∧ (s.failEntries a).lists = s.lists
      ∧ (s.failEntries a).pointers = s.pointers ∧ (s.failEntries a).targets = s.targets
      ∧ (s.failEntries a).engine = s.engine ∧ (s.failEntries a).monitor = s.monitor := by
  refine ⟨foldl_keep State.pending (fun x b => by simp) _ _,
    foldl_keep State.hold (fun x b => by simp) _ _,
    foldl_keep State.supervisor (fun x b => by simp) _ _,
    foldl_keep State.cause (fun x b => by simp) _ _,
    foldl_keep State.params (fun x b => by simp) _ _,
    foldl_keep State.now (fun x b => by simp) _ _,
    foldl_keep State.ports (fun x b => by simp) _ _,
    foldl_keep State.slots (fun x b => by simp) _ _,
    foldl_keep State.lists (fun x b => by simp) _ _,
    foldl_keep State.pointers (fun x b => by simp) _ _,
    foldl_keep State.targets (fun x b => by simp) _ _,
    foldl_keep State.engine (fun x b => by simp) _ _,
    foldl_keep State.monitor (fun x b => by simp) _ _⟩

@[simp] theorem returnEntry_frame (a : Byte) (e : EntryId) :
    (s.returnEntry a e).pending = s.pending ∧ (s.returnEntry a e).hold = s.hold
      ∧ (s.returnEntry a e).supervisor = s.supervisor ∧ (s.returnEntry a e).cause = s.cause
      ∧ (s.returnEntry a e).params = s.params ∧ (s.returnEntry a e).now = s.now ∧ (s.returnEntry a e).ports = s.ports
      ∧ (s.returnEntry a e).slots = s.slots ∧ (s.returnEntry a e).lists = s.lists
      ∧ (s.returnEntry a e).pointers = s.pointers ∧ (s.returnEntry a e).targets = s.targets
      ∧ (s.returnEntry a e).engine = s.engine ∧ (s.returnEntry a e).monitor = s.monitor := by
  simp only [State.returnEntry]
  (repeat' split) <;> simp

@[simp] theorem returnEntries_frame (a : Byte) :
    (s.returnEntries a).pending = s.pending ∧ (s.returnEntries a).hold = s.hold
      ∧ (s.returnEntries a).supervisor = s.supervisor ∧ (s.returnEntries a).cause = s.cause
      ∧ (s.returnEntries a).params = s.params ∧ (s.returnEntries a).now = s.now ∧ (s.returnEntries a).ports = s.ports
      ∧ (s.returnEntries a).slots = s.slots ∧ (s.returnEntries a).lists = s.lists
      ∧ (s.returnEntries a).pointers = s.pointers ∧ (s.returnEntries a).targets = s.targets
      ∧ (s.returnEntries a).engine = s.engine ∧ (s.returnEntries a).monitor = s.monitor := by
  refine ⟨foldl_keep State.pending (fun x b => by simp) _ _,
    foldl_keep State.hold (fun x b => by simp) _ _,
    foldl_keep State.supervisor (fun x b => by simp) _ _,
    foldl_keep State.cause (fun x b => by simp) _ _,
    foldl_keep State.params (fun x b => by simp) _ _,
    foldl_keep State.now (fun x b => by simp) _ _,
    foldl_keep State.ports (fun x b => by simp) _ _,
    foldl_keep State.slots (fun x b => by simp) _ _,
    foldl_keep State.lists (fun x b => by simp) _ _,
    foldl_keep State.pointers (fun x b => by simp) _ _,
    foldl_keep State.targets (fun x b => by simp) _ _,
    foldl_keep State.engine (fun x b => by simp) _ _,
    foldl_keep State.monitor (fun x b => by simp) _ _⟩

@[simp] theorem notLockedOf_frame (p : Port) :
    (s.notLockedOf p).pending = s.pending ∧ (s.notLockedOf p).hold = s.hold
      ∧ (s.notLockedOf p).supervisor = s.supervisor ∧ (s.notLockedOf p).cause = s.cause
      ∧ (s.notLockedOf p).params = s.params ∧ (s.notLockedOf p).now = s.now ∧ (s.notLockedOf p).ports = s.ports
      ∧ (s.notLockedOf p).pointers = s.pointers ∧ (s.notLockedOf p).entries = s.entries
      ∧ (s.notLockedOf p).targets = s.targets ∧ (s.notLockedOf p).engine = s.engine
      ∧ (s.notLockedOf p).monitor = s.monitor := by
  refine ⟨foldl_keep State.pending (fun x b => by split <;> simp) _ _,
    foldl_keep State.hold (fun x b => by split <;> simp) _ _,
    foldl_keep State.supervisor (fun x b => by split <;> simp) _ _,
    foldl_keep State.cause (fun x b => by split <;> simp) _ _,
    foldl_keep State.params (fun x b => by split <;> simp) _ _,
    foldl_keep State.now (fun x b => by split <;> simp) _ _,
    foldl_keep State.ports (fun x b => by split <;> simp) _ _,
    foldl_keep State.pointers (fun x b => by split <;> simp) _ _,
    foldl_keep State.entries (fun x b => by split <;> simp) _ _,
    foldl_keep State.targets (fun x b => by split <;> simp) _ _,
    foldl_keep State.engine (fun x b => by split <;> simp) _ _,
    foldl_keep State.monitor (fun x b => by split <;> simp) _ _⟩

@[simp] theorem notLockedAll_frame :
    (s.notLockedAll).pending = s.pending ∧ (s.notLockedAll).hold = s.hold
      ∧ (s.notLockedAll).supervisor = s.supervisor ∧ (s.notLockedAll).cause = s.cause
      ∧ (s.notLockedAll).params = s.params ∧ (s.notLockedAll).now = s.now ∧ (s.notLockedAll).ports = s.ports
      ∧ (s.notLockedAll).pointers = s.pointers ∧ (s.notLockedAll).entries = s.entries
      ∧ (s.notLockedAll).targets = s.targets ∧ (s.notLockedAll).engine = s.engine
      ∧ (s.notLockedAll).monitor = s.monitor := by
  refine ⟨foldl_keep State.pending (fun x b => by simp) _ _,
    foldl_keep State.hold (fun x b => by simp) _ _,
    foldl_keep State.supervisor (fun x b => by simp) _ _,
    foldl_keep State.cause (fun x b => by simp) _ _,
    foldl_keep State.params (fun x b => by simp) _ _,
    foldl_keep State.now (fun x b => by simp) _ _,
    foldl_keep State.ports (fun x b => by simp) _ _,
    foldl_keep State.pointers (fun x b => by simp) _ _,
    foldl_keep State.entries (fun x b => by simp) _ _,
    foldl_keep State.targets (fun x b => by simp) _ _,
    foldl_keep State.engine (fun x b => by simp) _ _,
    foldl_keep State.monitor (fun x b => by simp) _ _⟩

@[simp] theorem startWork_frame (w : Work) :
    (s.startWork w).pending = s.pending ∧ (s.startWork w).hold = s.hold ∧ (s.startWork w).supervisor = s.supervisor
      ∧ (s.startWork w).cause = s.cause ∧ (s.startWork w).params = s.params ∧ (s.startWork w).now = s.now
      ∧ (s.startWork w).ports = s.ports ∧ (s.startWork w).notices = s.notices ∧ (s.startWork w).lists = s.lists
      ∧ (s.startWork w).pointers = s.pointers ∧ (s.startWork w).monitor = s.monitor := by
  simp only [State.startWork]
  (repeat' split) <;> simp

@[simp] theorem select_frame :
    (s.select).pending = s.pending ∧ (s.select).hold = s.hold ∧ (s.select).supervisor = s.supervisor
      ∧ (s.select).cause = s.cause ∧ (s.select).params = s.params ∧ (s.select).now = s.now
      ∧ (s.select).ports = s.ports ∧ (s.select).notices = s.notices ∧ (s.select).lists = s.lists
      ∧ (s.select).monitor = s.monitor := by
  simp only [State.select]
  (repeat' split) <;> simp

@[simp] theorem settle_frame :
    (s.settle).pending = s.pending ∧ (s.settle).hold = s.hold ∧ (s.settle).supervisor = s.supervisor
      ∧ (s.settle).cause = s.cause ∧ (s.settle).params = s.params ∧ (s.settle).now = s.now
      ∧ (s.settle).ports = s.ports ∧ (s.settle).monitor = s.monitor := by
  simp [State.settle]

@[simp] theorem ageOne_frame (w : Waiting) :
    (s.ageOne w).pending = s.pending ∧ (s.ageOne w).hold = s.hold ∧ (s.ageOne w).supervisor = s.supervisor
      ∧ (s.ageOne w).cause = s.cause ∧ (s.ageOne w).params = s.params ∧ (s.ageOne w).now = s.now
      ∧ (s.ageOne w).ports = s.ports ∧ (s.ageOne w).notices = s.notices ∧ (s.ageOne w).lists = s.lists
      ∧ (s.ageOne w).pointers = s.pointers ∧ (s.ageOne w).engine = s.engine ∧ (s.ageOne w).monitor = s.monitor := by
  simp only [State.ageOne]
  (repeat' split) <;> simp

@[simp] theorem ageAll_frame :
    (s.ageAll).pending = s.pending ∧ (s.ageAll).hold = s.hold ∧ (s.ageAll).supervisor = s.supervisor
      ∧ (s.ageAll).cause = s.cause ∧ (s.ageAll).params = s.params ∧ (s.ageAll).now = s.now
      ∧ (s.ageAll).ports = s.ports ∧ (s.ageAll).notices = s.notices ∧ (s.ageAll).lists = s.lists
      ∧ (s.ageAll).pointers = s.pointers ∧ (s.ageAll).engine = s.engine ∧ (s.ageAll).monitor = s.monitor := by
  refine ⟨((foldl_keep State.pending (fun x b => by simp) _ _).trans
      (foldl_keep State.pending (fun x b => by simp) _ _)).trans
      (foldl_keep State.pending (fun x b => by simp) _ _),
    ((foldl_keep State.hold (fun x b => by simp) _ _).trans
      (foldl_keep State.hold (fun x b => by simp) _ _)).trans
      (foldl_keep State.hold (fun x b => by simp) _ _),
    ((foldl_keep State.supervisor (fun x b => by simp) _ _).trans
      (foldl_keep State.supervisor (fun x b => by simp) _ _)).trans
      (foldl_keep State.supervisor (fun x b => by simp) _ _),
    ((foldl_keep State.cause (fun x b => by simp) _ _).trans
      (foldl_keep State.cause (fun x b => by simp) _ _)).trans
      (foldl_keep State.cause (fun x b => by simp) _ _),
    ((foldl_keep State.params (fun x b => by simp) _ _).trans
      (foldl_keep State.params (fun x b => by simp) _ _)).trans
      (foldl_keep State.params (fun x b => by simp) _ _),
    ((foldl_keep State.now (fun x b => by simp) _ _).trans
      (foldl_keep State.now (fun x b => by simp) _ _)).trans
      (foldl_keep State.now (fun x b => by simp) _ _),
    ((foldl_keep State.ports (fun x b => by simp) _ _).trans
      (foldl_keep State.ports (fun x b => by simp) _ _)).trans
      (foldl_keep State.ports (fun x b => by simp) _ _),
    ((foldl_keep State.notices (fun x b => by simp) _ _).trans
      (foldl_keep State.notices (fun x b => by simp) _ _)).trans
      (foldl_keep State.notices (fun x b => by simp) _ _),
    ((foldl_keep State.lists (fun x b => by simp) _ _).trans
      (foldl_keep State.lists (fun x b => by simp) _ _)).trans
      (foldl_keep State.lists (fun x b => by simp) _ _),
    ((foldl_keep State.pointers (fun x b => by simp) _ _).trans
      (foldl_keep State.pointers (fun x b => by simp) _ _)).trans
      (foldl_keep State.pointers (fun x b => by simp) _ _),
    ((foldl_keep State.engine (fun x b => by simp) _ _).trans
      (foldl_keep State.engine (fun x b => by simp) _ _)).trans
      (foldl_keep State.engine (fun x b => by simp) _ _),
    ((foldl_keep State.monitor (fun x b => by simp) _ _).trans
      (foldl_keep State.monitor (fun x b => by simp) _ _)).trans
      (foldl_keep State.monitor (fun x b => by simp) _ _)⟩

@[simp] theorem reclassAll_frame :
    (s.reclassAll).pending = s.pending ∧ (s.reclassAll).hold = s.hold ∧ (s.reclassAll).supervisor = s.supervisor
      ∧ (s.reclassAll).cause = s.cause ∧ (s.reclassAll).params = s.params ∧ (s.reclassAll).now = s.now
      ∧ (s.reclassAll).ports = s.ports ∧ (s.reclassAll).notices = s.notices ∧ (s.reclassAll).slots = s.slots
      ∧ (s.reclassAll).lists = s.lists ∧ (s.reclassAll).pointers = s.pointers ∧ (s.reclassAll).engine = s.engine
      ∧ (s.reclassAll).monitor = s.monitor := by
  refine ⟨(foldl_keep State.pending (fun x b => by simp) _ _).trans
      (foldl_keep State.pending (fun x b => by simp) _ _),
    (foldl_keep State.hold (fun x b => by simp) _ _).trans
      (foldl_keep State.hold (fun x b => by simp) _ _),
    (foldl_keep State.supervisor (fun x b => by simp) _ _).trans
      (foldl_keep State.supervisor (fun x b => by simp) _ _),
    (foldl_keep State.cause (fun x b => by simp) _ _).trans
      (foldl_keep State.cause (fun x b => by simp) _ _),
    (foldl_keep State.params (fun x b => by simp) _ _).trans
      (foldl_keep State.params (fun x b => by simp) _ _),
    (foldl_keep State.now (fun x b => by simp) _ _).trans
      (foldl_keep State.now (fun x b => by simp) _ _),
    (foldl_keep State.ports (fun x b => by simp) _ _).trans
      (foldl_keep State.ports (fun x b => by simp) _ _),
    (foldl_keep State.notices (fun x b => by simp) _ _).trans
      (foldl_keep State.notices (fun x b => by simp) _ _),
    (foldl_keep State.slots (fun x b => by simp) _ _).trans
      (foldl_keep State.slots (fun x b => by simp) _ _),
    (foldl_keep State.lists (fun x b => by simp) _ _).trans
      (foldl_keep State.lists (fun x b => by simp) _ _),
    (foldl_keep State.pointers (fun x b => by simp) _ _).trans
      (foldl_keep State.pointers (fun x b => by simp) _ _),
    (foldl_keep State.engine (fun x b => by simp) _ _).trans
      (foldl_keep State.engine (fun x b => by simp) _ _),
    (foldl_keep State.monitor (fun x b => by simp) _ _).trans
      (foldl_keep State.monitor (fun x b => by simp) _ _)⟩

@[simp] theorem scheduleProbe_frame (t : TargetId) :
    (s.scheduleProbe t).pending = s.pending ∧ (s.scheduleProbe t).hold = s.hold
      ∧ (s.scheduleProbe t).supervisor = s.supervisor ∧ (s.scheduleProbe t).cause = s.cause
      ∧ (s.scheduleProbe t).params = s.params ∧ (s.scheduleProbe t).now = s.now ∧ (s.scheduleProbe t).ports = s.ports
      ∧ (s.scheduleProbe t).notices = s.notices ∧ (s.scheduleProbe t).slots = s.slots
      ∧ (s.scheduleProbe t).lists = s.lists ∧ (s.scheduleProbe t).pointers = s.pointers
      ∧ (s.scheduleProbe t).entries = s.entries ∧ (s.scheduleProbe t).engine = s.engine
      ∧ (s.scheduleProbe t).monitor = s.monitor := by
  simp [State.scheduleProbe]

@[simp] theorem quarantineOnset_frame (t : TargetId) :
    (s.quarantineOnset t).pending = s.pending ∧ (s.quarantineOnset t).hold = s.hold
      ∧ (s.quarantineOnset t).supervisor = s.supervisor ∧ (s.quarantineOnset t).cause = s.cause
      ∧ (s.quarantineOnset t).params = s.params ∧ (s.quarantineOnset t).now = s.now
      ∧ (s.quarantineOnset t).ports = s.ports ∧ (s.quarantineOnset t).pointers = s.pointers
      ∧ (s.quarantineOnset t).engine = s.engine ∧ (s.quarantineOnset t).monitor = s.monitor := by
  simp only [State.quarantineOnset]
  (repeat' split) <;> simp

@[simp] theorem quarantineEnd_frame (t : TargetId) :
    (s.quarantineEnd t).pending = s.pending ∧ (s.quarantineEnd t).hold = s.hold
      ∧ (s.quarantineEnd t).supervisor = s.supervisor ∧ (s.quarantineEnd t).cause = s.cause
      ∧ (s.quarantineEnd t).params = s.params ∧ (s.quarantineEnd t).now = s.now ∧ (s.quarantineEnd t).ports = s.ports
      ∧ (s.quarantineEnd t).pointers = s.pointers ∧ (s.quarantineEnd t).engine = s.engine
      ∧ (s.quarantineEnd t).monitor = s.monitor := by
  simp only [State.quarantineEnd]
  (repeat' split) <;> simp

@[simp] theorem countFailure_frame (t : TargetId) :
    (s.countFailure t).pending = s.pending ∧ (s.countFailure t).hold = s.hold
      ∧ (s.countFailure t).supervisor = s.supervisor ∧ (s.countFailure t).cause = s.cause
      ∧ (s.countFailure t).params = s.params ∧ (s.countFailure t).now = s.now ∧ (s.countFailure t).ports = s.ports
      ∧ (s.countFailure t).pointers = s.pointers ∧ (s.countFailure t).engine = s.engine
      ∧ (s.countFailure t).monitor = s.monitor := by
  simp only [State.countFailure]
  (repeat' split) <;> simp

@[simp] theorem countSuccess_frame (t : TargetId) :
    (s.countSuccess t).pending = s.pending ∧ (s.countSuccess t).hold = s.hold
      ∧ (s.countSuccess t).supervisor = s.supervisor ∧ (s.countSuccess t).cause = s.cause
      ∧ (s.countSuccess t).params = s.params ∧ (s.countSuccess t).now = s.now ∧ (s.countSuccess t).ports = s.ports
      ∧ (s.countSuccess t).pointers = s.pointers ∧ (s.countSuccess t).engine = s.engine
      ∧ (s.countSuccess t).monitor = s.monitor := by
  simp only [State.countSuccess]
  (repeat' split) <;> simp

@[simp] theorem account_frame (a : Byte) (o : TransferOutcome) (b : Bool) :
    (s.account a o b).pending = s.pending ∧ (s.account a o b).hold = s.hold
      ∧ (s.account a o b).supervisor = s.supervisor ∧ (s.account a o b).cause = s.cause
      ∧ (s.account a o b).params = s.params ∧ (s.account a o b).now = s.now ∧ (s.account a o b).ports = s.ports
      ∧ (s.account a o b).pointers = s.pointers ∧ (s.account a o b).engine = s.engine
      ∧ (s.account a o b).monitor = s.monitor := by
  simp only [State.account]
  (repeat' split) <;> simp

@[simp] theorem reschedule_frame (t : TargetId) :
    (s.reschedule t).pending = s.pending ∧ (s.reschedule t).hold = s.hold
      ∧ (s.reschedule t).supervisor = s.supervisor ∧ (s.reschedule t).cause = s.cause
      ∧ (s.reschedule t).params = s.params ∧ (s.reschedule t).now = s.now ∧ (s.reschedule t).ports = s.ports
      ∧ (s.reschedule t).notices = s.notices ∧ (s.reschedule t).slots = s.slots ∧ (s.reschedule t).lists = s.lists
      ∧ (s.reschedule t).pointers = s.pointers ∧ (s.reschedule t).entries = s.entries
      ∧ (s.reschedule t).engine = s.engine ∧ (s.reschedule t).monitor = s.monitor := by
  simp only [State.reschedule]
  (repeat' split) <;> simp

@[simp] theorem redeclare_frame (t : TargetId) (x : Target) (d : Declaration) :
    (s.redeclare t x d).pending = s.pending ∧ (s.redeclare t x d).hold = s.hold
      ∧ (s.redeclare t x d).supervisor = s.supervisor ∧ (s.redeclare t x d).cause = s.cause
      ∧ (s.redeclare t x d).params = s.params ∧ (s.redeclare t x d).now = s.now ∧ (s.redeclare t x d).ports = s.ports
      ∧ (s.redeclare t x d).pointers = s.pointers ∧ (s.redeclare t x d).engine = s.engine
      ∧ (s.redeclare t x d).monitor = s.monitor := by
  simp only [State.redeclare]
  (repeat' split) <;> simp

@[simp] theorem grant_frame (t : TargetId) (p : Port) (l : Nat) :
    (s.grant t p l).pending = s.pending ∧ (s.grant t p l).hold = s.hold ∧ (s.grant t p l).supervisor = s.supervisor
      ∧ (s.grant t p l).cause = s.cause ∧ (s.grant t p l).params = s.params ∧ (s.grant t p l).now = s.now
      ∧ (s.grant t p l).ports = s.ports ∧ (s.grant t p l).notices = s.notices ∧ (s.grant t p l).slots = s.slots
      ∧ (s.grant t p l).lists = s.lists ∧ (s.grant t p l).pointers = s.pointers ∧ (s.grant t p l).entries = s.entries
      ∧ (s.grant t p l).engine = s.engine ∧ (s.grant t p l).monitor = s.monitor := by
  simp [State.grant]

@[simp] theorem grantNext_frame (t : TargetId) :
    (s.grantNext t).pending = s.pending ∧ (s.grantNext t).hold = s.hold ∧ (s.grantNext t).supervisor = s.supervisor
      ∧ (s.grantNext t).cause = s.cause ∧ (s.grantNext t).params = s.params ∧ (s.grantNext t).now = s.now
      ∧ (s.grantNext t).ports = s.ports ∧ (s.grantNext t).slots = s.slots ∧ (s.grantNext t).lists = s.lists
      ∧ (s.grantNext t).pointers = s.pointers ∧ (s.grantNext t).entries = s.entries
      ∧ (s.grantNext t).engine = s.engine ∧ (s.grantNext t).monitor = s.monitor := by
  simp only [State.grantNext]
  (repeat' split) <;> simp

@[simp] theorem release_frame (t : TargetId) (p : Port) (c : Option LockEnd) :
    (s.release t p c).pending = s.pending ∧ (s.release t p c).hold = s.hold
      ∧ (s.release t p c).supervisor = s.supervisor ∧ (s.release t p c).cause = s.cause
      ∧ (s.release t p c).params = s.params ∧ (s.release t p c).now = s.now ∧ (s.release t p c).ports = s.ports
      ∧ (s.release t p c).pointers = s.pointers ∧ (s.release t p c).entries = s.entries
      ∧ (s.release t p c).engine = s.engine ∧ (s.release t p c).monitor = s.monitor := by
  simp only [State.release]
  (repeat' split) <;> simp

@[simp] theorem leaveWait_frame (t : TargetId) (p : Port) :
    (s.leaveWait t p).pending = s.pending ∧ (s.leaveWait t p).hold = s.hold
      ∧ (s.leaveWait t p).supervisor = s.supervisor ∧ (s.leaveWait t p).cause = s.cause
      ∧ (s.leaveWait t p).params = s.params ∧ (s.leaveWait t p).now = s.now ∧ (s.leaveWait t p).ports = s.ports
      ∧ (s.leaveWait t p).notices = s.notices ∧ (s.leaveWait t p).slots = s.slots ∧ (s.leaveWait t p).lists = s.lists
      ∧ (s.leaveWait t p).pointers = s.pointers ∧ (s.leaveWait t p).entries = s.entries
      ∧ (s.leaveWait t p).engine = s.engine ∧ (s.leaveWait t p).monitor = s.monitor := by
  simp [State.leaveWait]

@[simp] theorem endLock_frame (p : Port) (t : TargetId) :
    (s.endLock p t).pending = s.pending ∧ (s.endLock p t).hold = s.hold ∧ (s.endLock p t).supervisor = s.supervisor
      ∧ (s.endLock p t).cause = s.cause ∧ (s.endLock p t).params = s.params ∧ (s.endLock p t).now = s.now
      ∧ (s.endLock p t).ports = s.ports ∧ (s.endLock p t).pointers = s.pointers ∧ (s.endLock p t).entries = s.entries
      ∧ (s.endLock p t).engine = s.engine ∧ (s.endLock p t).monitor = s.monitor := by
  simp only [State.endLock]
  (repeat' split) <;> simp

@[simp] theorem endLocks_frame (p : Port) :
    (s.endLocks p).pending = s.pending ∧ (s.endLocks p).hold = s.hold ∧ (s.endLocks p).supervisor = s.supervisor
      ∧ (s.endLocks p).cause = s.cause ∧ (s.endLocks p).params = s.params ∧ (s.endLocks p).now = s.now
      ∧ (s.endLocks p).ports = s.ports ∧ (s.endLocks p).pointers = s.pointers ∧ (s.endLocks p).entries = s.entries
      ∧ (s.endLocks p).engine = s.engine ∧ (s.endLocks p).monitor = s.monitor := by
  refine ⟨foldl_keep State.pending (fun x b => by simp) _ _,
    foldl_keep State.hold (fun x b => by simp) _ _,
    foldl_keep State.supervisor (fun x b => by simp) _ _,
    foldl_keep State.cause (fun x b => by simp) _ _,
    foldl_keep State.params (fun x b => by simp) _ _,
    foldl_keep State.now (fun x b => by simp) _ _,
    foldl_keep State.ports (fun x b => by simp) _ _,
    foldl_keep State.pointers (fun x b => by simp) _ _,
    foldl_keep State.entries (fun x b => by simp) _ _,
    foldl_keep State.engine (fun x b => by simp) _ _,
    foldl_keep State.monitor (fun x b => by simp) _ _⟩

@[simp] theorem endSession_frame (p : Port) :
    (s.endSession p).pending = s.pending ∧ (s.endSession p).hold = s.hold
      ∧ (s.endSession p).supervisor = s.supervisor ∧ (s.endSession p).cause = s.cause
      ∧ (s.endSession p).params = s.params ∧ (s.endSession p).now = s.now ∧ (s.endSession p).pointers = s.pointers
      ∧ (s.endSession p).engine = s.engine ∧ (s.endSession p).monitor = s.monitor := by
  simp [State.endSession]

@[simp] theorem openSession_frame (p : Port) :
    (s.openSession p).pending = s.pending ∧ (s.openSession p).hold = s.hold
      ∧ (s.openSession p).supervisor = s.supervisor ∧ (s.openSession p).cause = s.cause
      ∧ (s.openSession p).params = s.params ∧ (s.openSession p).now = s.now ∧ (s.openSession p).notices = s.notices
      ∧ (s.openSession p).slots = s.slots ∧ (s.openSession p).lists = s.lists
      ∧ (s.openSession p).pointers = s.pointers ∧ (s.openSession p).entries = s.entries
      ∧ (s.openSession p).targets = s.targets ∧ (s.openSession p).engine = s.engine
      ∧ (s.openSession p).monitor = s.monitor := by
  simp [State.openSession]

@[simp] theorem clearFault_frame :
    (s.clearFault).pending = s.pending ∧ (s.clearFault).hold = s.hold ∧ (s.clearFault).supervisor = s.supervisor
      ∧ (s.clearFault).cause = s.cause ∧ (s.clearFault).params = s.params ∧ (s.clearFault).now = s.now
      ∧ (s.clearFault).ports = s.ports ∧ (s.clearFault).slots = s.slots ∧ (s.clearFault).lists = s.lists
      ∧ (s.clearFault).pointers = s.pointers ∧ (s.clearFault).entries = s.entries
      ∧ (s.clearFault).targets = s.targets ∧ (s.clearFault).engine = s.engine := by
  simp only [State.clearFault]
  (repeat' split) <;> simp

@[simp] theorem reachFree_frame :
    (s.reachFree).pending = s.pending ∧ (s.reachFree).hold = s.hold ∧ (s.reachFree).supervisor = s.supervisor
      ∧ (s.reachFree).cause = s.cause ∧ (s.reachFree).params = s.params ∧ (s.reachFree).now = s.now
      ∧ (s.reachFree).ports = s.ports ∧ (s.reachFree).slots = s.slots ∧ (s.reachFree).lists = s.lists
      ∧ (s.reachFree).pointers = s.pointers ∧ (s.reachFree).entries = s.entries ∧ (s.reachFree).targets = s.targets
      ∧ (s.reachFree).engine = s.engine := by
  simp [State.reachFree]

@[simp] theorem reachForeign_frame (l : Lines) :
    (s.reachForeign l).pending = s.pending ∧ (s.reachForeign l).hold = s.hold
      ∧ (s.reachForeign l).supervisor = s.supervisor ∧ (s.reachForeign l).cause = s.cause
      ∧ (s.reachForeign l).params = s.params ∧ (s.reachForeign l).now = s.now ∧ (s.reachForeign l).ports = s.ports
      ∧ (s.reachForeign l).slots = s.slots ∧ (s.reachForeign l).lists = s.lists
      ∧ (s.reachForeign l).pointers = s.pointers ∧ (s.reachForeign l).entries = s.entries
      ∧ (s.reachForeign l).targets = s.targets ∧ (s.reachForeign l).engine = s.engine := by
  simp [State.reachForeign]

@[simp] theorem beginAttempt_frame :
    (s.beginAttempt).pending = s.pending ∧ (s.beginAttempt).hold = s.hold
      ∧ (s.beginAttempt).supervisor = s.supervisor ∧ (s.beginAttempt).cause = s.cause
      ∧ (s.beginAttempt).params = s.params ∧ (s.beginAttempt).now = s.now ∧ (s.beginAttempt).ports = s.ports
      ∧ (s.beginAttempt).notices = s.notices ∧ (s.beginAttempt).slots = s.slots ∧ (s.beginAttempt).lists = s.lists
      ∧ (s.beginAttempt).pointers = s.pointers ∧ (s.beginAttempt).entries = s.entries
      ∧ (s.beginAttempt).targets = s.targets := by
  simp [State.beginAttempt]

@[simp] theorem beginSequence_frame :
    (s.beginSequence).pending = s.pending ∧ (s.beginSequence).hold = s.hold
      ∧ (s.beginSequence).supervisor = s.supervisor ∧ (s.beginSequence).cause = s.cause
      ∧ (s.beginSequence).params = s.params ∧ (s.beginSequence).now = s.now ∧ (s.beginSequence).ports = s.ports
      ∧ (s.beginSequence).notices = s.notices ∧ (s.beginSequence).slots = s.slots ∧ (s.beginSequence).lists = s.lists
      ∧ (s.beginSequence).pointers = s.pointers ∧ (s.beginSequence).entries = s.entries
      ∧ (s.beginSequence).targets = s.targets := by
  simp [State.beginSequence]

@[simp] theorem enterFaulted_frame :
    (s.enterFaulted).pending = s.pending ∧ (s.enterFaulted).hold = s.hold
      ∧ (s.enterFaulted).supervisor = s.supervisor ∧ (s.enterFaulted).cause = s.cause
      ∧ (s.enterFaulted).params = s.params ∧ (s.enterFaulted).now = s.now ∧ (s.enterFaulted).ports = s.ports
      ∧ (s.enterFaulted).pointers = s.pointers ∧ (s.enterFaulted).entries = s.entries
      ∧ (s.enterFaulted).targets = s.targets := by
  simp only [State.enterFaulted]
  (repeat' split) <;> simp

@[simp] theorem endAttempt_frame (l : Lines) :
    (s.endAttempt l).pending = s.pending ∧ (s.endAttempt l).hold = s.hold
      ∧ (s.endAttempt l).supervisor = s.supervisor ∧ (s.endAttempt l).cause = s.cause
      ∧ (s.endAttempt l).params = s.params ∧ (s.endAttempt l).now = s.now ∧ (s.endAttempt l).ports = s.ports := by
  simp only [State.endAttempt]
  (repeat' split) <;> simp

@[simp] theorem hangExpires_frame :
    (s.hangExpires).pending = s.pending ∧ (s.hangExpires).hold = s.hold ∧ (s.hangExpires).supervisor = s.supervisor
      ∧ (s.hangExpires).cause = s.cause ∧ (s.hangExpires).params = s.params ∧ (s.hangExpires).now = s.now
      ∧ (s.hangExpires).ports = s.ports := by
  simp only [State.hangExpires]
  (repeat' split) <;> simp

@[simp] theorem retimeHang_frame :
    (s.retimeHang).pending = s.pending ∧ (s.retimeHang).hold = s.hold ∧ (s.retimeHang).supervisor = s.supervisor
      ∧ (s.retimeHang).cause = s.cause ∧ (s.retimeHang).params = s.params ∧ (s.retimeHang).now = s.now
      ∧ (s.retimeHang).ports = s.ports := by
  simp only [State.retimeHang]
  (repeat' split) <;> simp

@[simp] theorem countAttempt_frame (x : Transfer) :
    (s.countAttempt x).pending = s.pending ∧ (s.countAttempt x).hold = s.hold
      ∧ (s.countAttempt x).supervisor = s.supervisor ∧ (s.countAttempt x).cause = s.cause
      ∧ (s.countAttempt x).params = s.params ∧ (s.countAttempt x).now = s.now ∧ (s.countAttempt x).ports = s.ports
      ∧ (s.countAttempt x).notices = s.notices ∧ (s.countAttempt x).lists = s.lists
      ∧ (s.countAttempt x).pointers = s.pointers ∧ (s.countAttempt x).entries = s.entries
      ∧ (s.countAttempt x).targets = s.targets ∧ (s.countAttempt x).monitor = s.monitor := by
  simp only [State.countAttempt]
  (repeat' split) <;> simp

@[simp] theorem deliver_frame (w : Work) (r : Report) :
    (s.deliver w r).pending = s.pending ∧ (s.deliver w r).hold = s.hold ∧ (s.deliver w r).supervisor = s.supervisor
      ∧ (s.deliver w r).cause = s.cause ∧ (s.deliver w r).params = s.params ∧ (s.deliver w r).now = s.now
      ∧ (s.deliver w r).ports = s.ports ∧ (s.deliver w r).pointers = s.pointers ∧ (s.deliver w r).engine = s.engine
      ∧ (s.deliver w r).monitor = s.monitor := by
  simp only [State.deliver]
  (repeat' split) <;> simp

@[simp] theorem finishTransfer_frame (w : Work) (r : Report) :
    (s.finishTransfer w r).pending = s.pending ∧ (s.finishTransfer w r).hold = s.hold
      ∧ (s.finishTransfer w r).supervisor = s.supervisor ∧ (s.finishTransfer w r).cause = s.cause
      ∧ (s.finishTransfer w r).params = s.params ∧ (s.finishTransfer w r).now = s.now
      ∧ (s.finishTransfer w r).ports = s.ports := by
  simp [State.finishTransfer]

@[simp] theorem nackAddress_frame (x : Transfer) :
    (s.nackAddress x).pending = s.pending ∧ (s.nackAddress x).hold = s.hold
      ∧ (s.nackAddress x).supervisor = s.supervisor ∧ (s.nackAddress x).cause = s.cause
      ∧ (s.nackAddress x).params = s.params ∧ (s.nackAddress x).now = s.now ∧ (s.nackAddress x).ports = s.ports := by
  simp only [State.nackAddress]
  (repeat' split) <;> simp

@[simp] theorem requeue_frame (n : SlotId) :
    (s.requeue n).pending = s.pending ∧ (s.requeue n).hold = s.hold ∧ (s.requeue n).supervisor = s.supervisor
      ∧ (s.requeue n).cause = s.cause ∧ (s.requeue n).params = s.params ∧ (s.requeue n).now = s.now
      ∧ (s.requeue n).ports = s.ports ∧ (s.requeue n).notices = s.notices ∧ (s.requeue n).lists = s.lists
      ∧ (s.requeue n).pointers = s.pointers ∧ (s.requeue n).entries = s.entries ∧ (s.requeue n).targets = s.targets
      ∧ (s.requeue n).engine = s.engine ∧ (s.requeue n).monitor = s.monitor := by
  simp [State.requeue]

@[simp] theorem loseRequest_frame (n : SlotId) (b : Nat) (a : Bool) :
    (s.loseRequest n b a).pending = s.pending ∧ (s.loseRequest n b a).hold = s.hold
      ∧ (s.loseRequest n b a).supervisor = s.supervisor ∧ (s.loseRequest n b a).cause = s.cause
      ∧ (s.loseRequest n b a).params = s.params ∧ (s.loseRequest n b a).now = s.now
      ∧ (s.loseRequest n b a).ports = s.ports ∧ (s.loseRequest n b a).pointers = s.pointers
      ∧ (s.loseRequest n b a).engine = s.engine ∧ (s.loseRequest n b a).monitor = s.monitor := by
  simp only [State.loseRequest]
  (repeat' split) <;> simp

@[simp] theorem repend_frame (e : EntryId) (i : Byte) (m : Maint) :
    (s.repend e i m).pending = s.pending ∧ (s.repend e i m).hold = s.hold
      ∧ (s.repend e i m).supervisor = s.supervisor ∧ (s.repend e i m).cause = s.cause
      ∧ (s.repend e i m).params = s.params ∧ (s.repend e i m).now = s.now ∧ (s.repend e i m).ports = s.ports
      ∧ (s.repend e i m).notices = s.notices ∧ (s.repend e i m).slots = s.slots ∧ (s.repend e i m).lists = s.lists
      ∧ (s.repend e i m).pointers = s.pointers ∧ (s.repend e i m).targets = s.targets
      ∧ (s.repend e i m).engine = s.engine ∧ (s.repend e i m).monitor = s.monitor := by
  simp only [State.repend]
  (repeat' split) <;> simp

@[simp] theorem reprobe_frame (t : TargetId) (m : Maint) :
    (s.reprobe t m).pending = s.pending ∧ (s.reprobe t m).hold = s.hold ∧ (s.reprobe t m).supervisor = s.supervisor
      ∧ (s.reprobe t m).cause = s.cause ∧ (s.reprobe t m).params = s.params ∧ (s.reprobe t m).now = s.now
      ∧ (s.reprobe t m).ports = s.ports ∧ (s.reprobe t m).notices = s.notices ∧ (s.reprobe t m).slots = s.slots
      ∧ (s.reprobe t m).lists = s.lists ∧ (s.reprobe t m).pointers = s.pointers ∧ (s.reprobe t m).entries = s.entries
      ∧ (s.reprobe t m).engine = s.engine ∧ (s.reprobe t m).monitor = s.monitor := by
  simp [State.reprobe]

@[simp] theorem loseTransfer_frame (w : Work) (l : Lines) (b : Nat) (a : Bool) :
    (s.loseTransfer w l b a).pending = s.pending ∧ (s.loseTransfer w l b a).hold = s.hold
      ∧ (s.loseTransfer w l b a).supervisor = s.supervisor ∧ (s.loseTransfer w l b a).cause = s.cause
      ∧ (s.loseTransfer w l b a).params = s.params ∧ (s.loseTransfer w l b a).now = s.now
      ∧ (s.loseTransfer w l b a).ports = s.ports := by
  simp only [State.loseTransfer]
  (repeat' split) <;> simp

@[simp] theorem observeStart_frame :
    (s.observeStart).pending = s.pending ∧ (s.observeStart).hold = s.hold
      ∧ (s.observeStart).supervisor = s.supervisor ∧ (s.observeStart).cause = s.cause
      ∧ (s.observeStart).params = s.params ∧ (s.observeStart).now = s.now ∧ (s.observeStart).ports = s.ports := by
  simp only [State.observeStart]
  (repeat' split) <;> simp

@[simp] theorem observeStop_frame :
    (s.observeStop).pending = s.pending ∧ (s.observeStop).hold = s.hold ∧ (s.observeStop).supervisor = s.supervisor
      ∧ (s.observeStop).cause = s.cause ∧ (s.observeStop).params = s.params ∧ (s.observeStop).now = s.now
      ∧ (s.observeStop).ports = s.ports := by
  simp only [State.observeStop]
  (repeat' split) <;> simp

@[simp] theorem observeOther_frame (l : Lines) :
    (s.observeOther l).pending = s.pending ∧ (s.observeOther l).hold = s.hold
      ∧ (s.observeOther l).supervisor = s.supervisor ∧ (s.observeOther l).cause = s.cause
      ∧ (s.observeOther l).params = s.params ∧ (s.observeOther l).now = s.now ∧ (s.observeOther l).ports = s.ports := by
  simp only [State.observeOther]
  (repeat' split) <;> simp

@[simp] theorem observeChange_frame (c : LineChange) :
    (s.observeChange c).pending = s.pending ∧ (s.observeChange c).hold = s.hold
      ∧ (s.observeChange c).supervisor = s.supervisor ∧ (s.observeChange c).cause = s.cause
      ∧ (s.observeChange c).params = s.params ∧ (s.observeChange c).now = s.now ∧ (s.observeChange c).ports = s.ports := by
  simp only [State.observeChange]
  (repeat' split) <;> simp

@[simp] theorem endTransfer_frame (x : Transfer) (h : TransferEnd) :
    (s.endTransfer x h).pending = s.pending ∧ (s.endTransfer x h).hold = s.hold
      ∧ (s.endTransfer x h).supervisor = s.supervisor ∧ (s.endTransfer x h).cause = s.cause
      ∧ (s.endTransfer x h).params = s.params ∧ (s.endTransfer x h).now = s.now ∧ (s.endTransfer x h).ports = s.ports := by
  simp only [State.endTransfer]
  (repeat' split) <;> simp

@[simp] theorem stretchExpires_frame (x : Transfer) (g : Progress) :
    (s.stretchExpires x g).pending = s.pending ∧ (s.stretchExpires x g).hold = s.hold
      ∧ (s.stretchExpires x g).supervisor = s.supervisor ∧ (s.stretchExpires x g).cause = s.cause
      ∧ (s.stretchExpires x g).params = s.params ∧ (s.stretchExpires x g).now = s.now
      ∧ (s.stretchExpires x g).ports = s.ports := by
  simp [State.stretchExpires]

end Sys2Proof.Machine
end

