-- ==== Sys2Proof/Laws/Pool.lean ====
section
/-! SUPPORT. What the slot pool's operations and the dispatcher's re-evaluation do to the slots, slot by slot. -/

namespace Sys2Proof.Machine

variable (s : State)

@[simp] theorem request_unlist (p : Port) (n m : SlotId) : (s.unlist p n).request m = s.request m :=
  congrFun (request_of_slots (by simp)) m

@[simp] theorem slot_unlist (p : Port) (n m : SlotId) : (s.unlist p n).slot m = s.slot m :=
  congrFun (slot_of_slots (by simp)) m

@[simp] theorem list_unlist (p q : Port) (n : SlotId) :
    (s.unlist p n).list q = if q = p then (s.list p).filter (· != n) else s.list q := by
  simp [State.unlist]

/-- Freeing a slot empties it and no other (R21). -/
@[simp] theorem request_freeSlotOf (n m : SlotId) :
    (s.freeSlotOf n).request m = if m = n then none else s.request m := by
  simp only [State.freeSlotOf]
  split
  · next h =>
    split
    · next e => rw [e, h]
    · rfl
  · simp

/-- Freeing a slot keeps every issue number (R3, R21). -/
@[simp] theorem issue_freeSlotOf (n m : SlotId) : ((s.freeSlotOf n).slot m).issue = (s.slot m).issue := by
  simp only [State.freeSlotOf]
  split
  · rfl
  · rw [issue_setSlot]
    split
    · next e => rw [e]
    · simp

/-- Freeing a slot takes it from its owner's request list and leaves every list in order (R6, R21). -/
theorem list_freeSlotOf {n : SlotId} {r : Request} (h : s.request n = some r) (p : Port) :
    (s.freeSlotOf n).list p = if p = r.owner then (s.list p).filter (· != n) else s.list p := by
  simp only [State.freeSlotOf, h]
  rw [congrFun (list_of_lists (setSlot_fields _ _ _).2.2.2.2.2.2.2.2.1) p, list_unlist]
  split
  · next e => rw [e]
  · rfl

/-- The request that a slot holds after its completion: none where the completion frees the slot (R13, R15, R23). -/
def Request.completed (r : Request) (x : Result) : Option Request :=
  if r.orphan || r.desc.autoRelease then none else some { r with state := .done x, abortPending := false }

/-- Completing a slot twice with one result is completing it once. -/
theorem Request.completed_completed (o : Option Request) (x : Result) :
    (o.bind fun r => r.completed x).bind (fun r => r.completed x) = o.bind fun r => r.completed x := by
  cases o with
  | none => rfl
  | some r =>
    simp only [Option.bind_some, Request.completed]
    split
    · rfl
    · next h => simpa using h

/-- A completion bears on its own slot alone (R13, R14, R23). -/
@[simp] theorem request_completeSlot (n m : SlotId) (x : Result) :
    (s.completeSlot n x).request m = if m = n then (s.request n).bind fun r => r.completed x else s.request m := by
  simp only [State.completeSlot]
  split
  · next h =>
    split
    · next e => simp [e, h]
    · rfl
  · next r h =>
    have done : (s.finishSlot n r x).request m
        = if m = n then some { r with state := .done x, abortPending := false } else s.request m := by
      simp [State.finishSlot]
    have told : (if r.desc.notify then (s.finishSlot n r x).offer (s.completedNotice n r x) r.owner
        else s.finishSlot n r x).request m = (s.finishSlot n r x).request m := by
      split
      · exact congrFun (request_of_slots (by simp)) m
      · rfl
    simp only [h, Option.bind_some, Request.completed]
    cases ho : r.orphan
    · cases r.desc.autoRelease
      · simp only [Bool.false_eq_true, if_false, Bool.or_self]
        rw [told, done, ho]
      · simp only [Bool.false_eq_true, if_false, if_true, Bool.or_true]
        rw [request_freeSlotOf, told, done]
        split <;> rfl
    · simp

/-- A completion keeps every issue number (R3). -/
@[simp] theorem issue_completeSlot (n m : SlotId) (x : Result) :
    ((s.completeSlot n x).slot m).issue = (s.slot m).issue := by
  simp only [State.completeSlot]
  split
  · rfl
  · next r h =>
    have done : ((s.finishSlot n r x).slot m).issue = (s.slot m).issue := by
      simp only [State.finishSlot, issue_setSlot, slot_unlist]
      split
      · next e => rw [e]
      · rfl
    have told : (if r.desc.notify then (s.finishSlot n r x).offer (s.completedNotice n r x) r.owner
        else s.finishSlot n r x).slot m = (s.finishSlot n r x).slot m := by
      split
      · exact congrFun (slot_of_slots (by simp)) m
      · rfl
    repeat' split
    all_goals simp_all

/-- Slots completed one after another (R14). -/
theorem request_foldl_completeSlot (x : Result) (l : List SlotId) (m : SlotId) :
    (l.foldl (fun s n => s.completeSlot n x) s).request m
      = if m ∈ l then (s.request m).bind fun r => r.completed x else s.request m := by
  induction l generalizing s with
  | nil => simp
  | cons n l ih =>
    rw [List.foldl_cons, ih, request_completeSlot]
    by_cases e : m = n
    · subst e
      simp [Request.completed_completed]
    · simp [e]

/-- A bulk completion bears on the slots it names alone (R14). -/
theorem request_completeQueued (p : Port) (c : Request → Bool) (o : TransferOutcome) (m : SlotId) :
    (s.completeQueued p c o).request m
      = if m ∈ s.queuedSuch p c then (s.request m).bind fun r => r.completed (Result.without o) else s.request m :=
  request_foldl_completeSlot s _ _ m

/-- A bulk completion takes QUEUED slots alone (R12, R14). -/
theorem request_completeQueued_of_not_queued (p : Port) (c : Request → Bool) (o : TransferOutcome) {m : SlotId}
    (h : ∀ r, s.request m = some r → r.state ≠ .queued) : (s.completeQueued p c o).request m = s.request m := by
  rw [request_completeQueued, if_neg]
  intro hm
  obtain ⟨-, hm⟩ := List.mem_filter.1 hm
  cases hr : s.request m with
  | none => simp [hr] at hm
  | some r =>
    simp only [hr, Option.any_some, Bool.and_eq_true, beq_iff_eq] at hm
    exact h r hr hm.1

/-- A slot that is not QUEUED, kept by every step of a fold, is kept by the fold. -/
theorem request_foldl_of_not_queued {β : Type} {f : State → β → State} {m : SlotId}
    (hf : ∀ (a : State) b, (∀ r, a.request m = some r → r.state ≠ .queued) → (f a b).request m = a.request m)
    (l : List β) (h : ∀ r, s.request m = some r → r.state ≠ .queued) : (l.foldl f s).request m = s.request m := by
  induction l generalizing s with
  | nil => rfl
  | cons b l ih =>
    rw [List.foldl_cons, ih, hf s b h]
    rw [hf s b h]
    exact h

theorem request_completeQueuedAll_of_not_queued (c : Request → Bool) (o : TransferOutcome) {m : SlotId}
    (h : ∀ r, s.request m = some r → r.state ≠ .queued) : (s.completeQueuedAll c o).request m = s.request m :=
  request_foldl_of_not_queued s (fun a p ha => request_completeQueued_of_not_queued a p c o ha) _ h

/-- The NOT LOCKED completions take QUEUED slots alone (R36). -/
theorem request_notLockedAll_of_not_queued {m : SlotId} (h : ∀ r, s.request m = some r → r.state ≠ .queued) :
    s.notLockedAll.request m = s.request m := by
  refine request_foldl_of_not_queued s (fun a p ha => ?_) _ h
  refine request_foldl_of_not_queued a (fun b n hb => ?_) _ ha
  split
  · next hdue =>
    rw [request_completeSlot]
    split
    · next e =>
      subst e
      exfalso
      cases hr : b.request m with
      | none => simp [State.notLockedDue, hr] at hdue
      | some r =>
        simp only [State.notLockedDue, hr, Option.any_some, Bool.and_eq_true, beq_iff_eq] at hdue
        exact hb r hr hdue.1.1.1.1.1.1
    · rfl
  · rfl

/-- The candidate of a port is a QUEUED slot (R31). -/
theorem headCandidate_queued {p : Port} {n : SlotId} (h : s.headCandidate p = some n) :
    ∃ r, s.request n = some r ∧ r.state = .queued := by
  have := List.find?_some h
  cases hr : s.request n with
  | none => simp [State.eligible, hr] at this
  | some r =>
    simp only [State.eligible, hr, Option.any_some, Bool.and_eq_true, beq_iff_eq] at this
    exact ⟨r, rfl, this.1.1.1.1⟩

/-- The maintenance items are polls and probes. -/
theorem maintenanceCandidate_maint {w : Work} (h : s.maintenanceCandidate = some w) : ∀ n, w ≠ .request n := by
  have mem : ∀ l : List Work, ∀ v, earliest l = some v → v ∈ l := by
    intro l
    induction l with
    | nil => simp [earliest]
    | cons a l ih =>
      intro v hv
      simp only [earliest] at hv
      split at hv
      · simp_all
      · next b hb =>
        split at hv <;> simp only [Option.some.injEq] at hv <;> subst hv
        · simp
        · simp [ih _ hb]
  have hm := mem _ _ h
  simp only [State.maintenanceItems, List.mem_append, List.mem_filterMap, State.probeItem, State.pollItem] at hm
  rintro n rfl
  rcases hm with ⟨t, -, ht⟩ | ⟨e, -, he⟩
  · split at ht
    · cases ht
    · split at ht
      · cases ht
      · simp at ht
  · split at he
    · cases he
    · split at he
      · cases he
      · simp at he

/-- A selection starts QUEUED slots alone (R12, R30). -/
theorem request_select_of_not_queued {m : SlotId} (h : ∀ r, s.request m = some r → r.state ≠ .queued) :
    s.select.request m = s.request m := by
  simp only [State.select]
  split
  · split
    · rfl
    · split
      · rfl
      · next w hw =>
        have hs : ∀ b : Pointers, State.request { s with pointers := b } = s.request := fun b => rfl
        cases w with
        | poll e i k r => exact congrFun (request_of_slots (by simp [State.startWork])) m
        | probe t a r => exact congrFun (request_of_slots (by simp [State.startWork])) m
        | request n =>
          have hq : ∃ r, s.request n = some r ∧ r.state = .queued := by
            rename_i x _ _
            cases x with
            | host p =>
              simp only [State.candidate, Option.map_eq_some_iff, Work.request.injEq, exists_eq_right] at hw
              exact headCandidate_queued s hw
            | maintenance => exact absurd rfl (maintenanceCandidate_maint s hw n)
          obtain ⟨r, hr, hq⟩ := hq
          have hne : m ≠ n := by
            rintro rfl
            exact h r hr hq
          simp only [State.startWork, hs, hr]
          rw [congrFun (request_of_slots (setEngine_fields _ _).2.2.2.2.2.2.2.2.1) m, request_updRequest, if_neg hne, hs]
  · rfl

/-- The dispatcher's re-evaluation leaves every slot that is not QUEUED as it is (R29, R36). -/
theorem request_settle_of_not_queued {m : SlotId} (h : ∀ r, s.request m = some r → r.state ≠ .queued) :
    s.settle.request m = s.request m := by
  rw [State.settle, request_select_of_not_queued, request_notLockedAll_of_not_queued s h]
  rwa [request_notLockedAll_of_not_queued s h]

end Sys2Proof.Machine
end

