-- ==== Sys2Proof/Laws/Lookup.lean ====
section
/-! SUPPORT. What the searches of the tables answer (R3, R49, R53, R75, R76), and updates of a record that is there. -/

namespace Sys2Proof.Machine

open Sys2Proof

variable {s : State}

/-- A search of a table by rising number finds the first place that satisfies the condition. -/
theorem finRange_find?_eq_some {k : Nat} {c : Fin k → Bool} {i : Fin k} :
    (List.finRange k).find? c = some i ↔ c i = true ∧ ∀ j, j < i → c j = false := by
  rw [List.find?_eq_some_iff_getElem]
  constructor
  · rintro ⟨hi, n, hn, he, hb⟩
    simp only [List.getElem_finRange] at he
    refine ⟨hi, fun j hj => ?_⟩
    have hlt : j.val < n := by subst he; exact hj
    simpa using hb j.val hlt
  · rintro ⟨hi, hb⟩
    refine ⟨hi, i.val, by simp, by simp, fun j hj => ?_⟩
    simpa using hb ⟨j, Nat.lt_trans hj i.isLt⟩ hj

/-- A search of a table finds nothing where no place satisfies the condition. -/
theorem finRange_find?_eq_none {k : Nat} {c : Fin k → Bool} :
    (List.finRange k).find? c = none ↔ ∀ i, c i = false := by
  simp [List.find?_eq_none]

theorem freeSlot_eq_some {n : SlotId} :
    s.freeSlot = some n ↔ s.request n = none ∧ ∀ m, m < n → s.request m ≠ none := by
  simp [State.freeSlot, finRange_find?_eq_some, Option.isSome_iff_ne_none]

theorem freeEntry_eq_some {e : EntryId} :
    s.freeEntry = some e ↔ s.entryUse e = none ∧ ∀ d, d < e → s.entryUse d ≠ none := by
  simp [State.freeEntry, finRange_find?_eq_some, Option.isSome_iff_ne_none]

theorem freeTarget_eq_some {t : TargetId} :
    s.freeTarget = some t ↔ s.target t = none ∧ ∀ u, u < t → s.target u ≠ none := by
  simp [State.freeTarget, finRange_find?_eq_some, Option.isSome_iff_ne_none]

theorem freeSlot_eq_none : s.freeSlot = none ↔ ∀ n, s.request n ≠ none := by
  simp [State.freeSlot]

theorem freeEntry_eq_none : s.freeEntry = none ↔ ∀ e, s.entryUse e ≠ none := by
  simp [State.freeEntry]

theorem freeTarget_eq_none : s.freeTarget = none ↔ ∀ t, s.target t ≠ none := by
  simp [State.freeTarget]

/-- The entry that a key finds is the lowest-numbered one in use with that key. -/
theorem findEntry_eq_some {k : Key} {e : EntryId} :
    s.findEntry k = some e ↔
      (∃ u, s.entryUse e = some u ∧ u.key = k) ∧ ∀ d, d < e → ∀ v, s.entryUse d = some v → v.key ≠ k := by
  simp [State.findEntry, finRange_find?_eq_some, Option.any_eq_true, Option.any_eq_false]

theorem findEntry_eq_none {k : Key} : s.findEntry k = none ↔ ∀ e u, s.entryUse e = some u → u.key ≠ k := by
  simp [State.findEntry, Option.any_eq_false]

/-- The index and the record that an address finds. -/
theorem lookup_eq_some {addr : Byte} {t : TargetId} {x : Target} (h : s.lookup addr = some (t, x)) :
    s.findTarget addr = some t ∧ s.target t = some x ∧ x.addr = addr ∧ s.targetAt addr = some x := by
  simp only [State.lookup, Option.bind_eq_some_iff, Option.map_eq_some_iff, Prod.mk.injEq] at h
  obtain ⟨t', hf, x', hx, rfl, rfl⟩ := h
  refine ⟨hf, hx, ?_, by simp [State.targetAt, hf, hx]⟩
  have := List.find?_some hf
  simpa [hx] using this

/-- What an address finds, by record or with the index. -/
theorem targetAt_eq_some {addr : Byte} {x : Target} : s.targetAt addr = some x ↔ ∃ t, s.lookup addr = some (t, x) := by
  simp [State.targetAt, State.lookup, Option.bind_eq_some_iff]

theorem targetAt_eq_none {addr : Byte} : s.targetAt addr = none ↔ s.lookup addr = none := by
  simp only [State.targetAt, State.lookup]
  cases s.findTarget addr with
  | none => simp
  | some t => simp

theorem findTarget_of_targetAt_none {addr : Byte} (h : s.targetAt addr = none) : s.findTarget addr = none := by
  cases hf : s.findTarget addr with
  | none => rfl
  | some t =>
    have hx := List.find?_some hf
    cases ht : s.target t with
    | none => simp [ht] at hx
    | some x => simp [State.targetAt, hf, ht] at h

/-! ## Updates of a record that is there -/

theorem updTarget_eq {t : TargetId} {x : Target} (h : s.target t = some x) (f : Target → Target) :
    s.updTarget t f = s.setTarget t (some (f x)) := by
  simp [State.updTarget, h]

theorem updEntry_eq {e : EntryId} {u : MirrorUse} (h : s.entryUse e = some u) (f : MirrorUse → MirrorUse) :
    s.updEntry e f = s.setEntry e ⟨(s.entry e).issue, some (f u)⟩ := by
  simp [State.updEntry, h]

theorem updRequest_eq {n : SlotId} {r : Request} (h : s.request n = some r) (f : Request → Request) :
    s.updRequest n f = s.setSlot n ⟨(s.slot n).issue, some (f r)⟩ := by
  simp [State.updRequest, h]

@[simp] theorem setTarget_setTarget (t : TargetId) (v w : Option Target) :
    (s.setTarget t v).setTarget t w = s.setTarget t w := by
  simp [State.setTarget]

@[simp] theorem setEntry_setEntry (e : EntryId) (v w : MirrorEntry) : (s.setEntry e v).setEntry e w = s.setEntry e w := by
  simp [State.setEntry]

@[simp] theorem setSlot_setSlot (n : SlotId) (v w : Slot) : (s.setSlot n v).setSlot n w = s.setSlot n w := by
  simp [State.setSlot]

end Sys2Proof.Machine
end

