-- ==== Sys2Proof/Laws/Bus.lean ====
section
/-! SUPPORT. What the monitor's moves, the bytes a port shows, the flag at START and a change of sponsors are, in the words of
Safety.lean. -/

namespace Sys2Proof.Machine

open Sys2Proof

variable {s : State}

/-- The move to FREE, fault left and all (R113, R115, R132). -/
theorem reachFree_eq_madeFree : s.reachFree = s.madeFree := by
  unfold State.reachFree State.madeFree State.clearFault
  cases h : s.monitor.busFault <;>
    simp [h, State.setMonitor, Monitor.inFree, linesHigh, State.attachedPorts, State.port]

/-- The move to FOREIGN, fault left and all (R116, R132). -/
theorem reachForeign_eq_madeForeign (lines : Lines) : s.reachForeign lines = s.madeForeign lines := by
  unfold State.reachForeign State.madeForeign State.clearFault
  cases h : s.monitor.busFault <;>
    simp [h, State.setMonitor, Monitor.inForeign, State.attachedPorts, State.port, State.timer]

/-- The flag that was set before START belongs to the request on the engine (R126). -/
theorem abortStands_iff_flagged {f : Transfer} : s.abortStands f = true ↔ s.flagged f := by
  simp only [State.abortStands, State.flagged, Bool.and_eq_true, State.abortPending]
  cases f.work <;> simp [Option.any_eq_true]

/-- A poll and a probe carry no abort-pending flag (R126). -/
theorem abortStands_of_not_request {f : Transfer} (h : ∀ n, f.work ≠ .request n) : s.abortStands f = false := by
  simp only [State.abortStands, State.abortPending]
  cases hw : f.work <;> simp_all

/-- In IDLE a port shows nothing (R147). -/
theorem sdo_idle {p : Port} (h : (s.port p).frame = .idle) (k : Nat) : s.sdo p k = none := by simp [State.sdo, h]

/-- In HEADER a port shows its status byte, and FFh once it is out (R179). -/
theorem sdo_header {p : Port} (h : (s.port p).frame = .header) (k : Nat) :
    s.sdo p k = some ((s.port p).statusOut.getD 0xFF#8) := by simp [State.sdo, h]

/-- In RESPONSE a port shows the turnaround byte, its response, and FFh beyond (R153). -/
theorem sdo_response {p : Port} {bytes : List Byte} (h : (s.port p).frame = .response)
    (hb : (s.port p).response = some bytes) (k : Nat) : s.sdo p k = some (((0x00#8 :: bytes)[k]?).getD 0xFF#8) := by
  simp [State.sdo, State.shiftedOut, h, hb]

/-- A change of sponsors, written from the entry as it stands (R50, R56, R66). -/
theorem setSponsors_eq_withSponsors {e : EntryId} {u : MirrorUse} (h : s.entryUse e = some u)
    (sponsors : PerPort (Option Sponsor)) : s.setSponsors e sponsors = s.withSponsors e u sponsors := by
  simp only [State.setSponsors, h, updEntry_eq h, State.withSponsors]

end Sys2Proof.Machine
end

