-- ==== Sys2Proof/Laws/Commands.lean ====
section
/-! SUPPORT. What the common check stage lets through (R152, R154), and what the argument checks take. -/

namespace Sys2Proof.Machine

open Sys2Proof

variable {α : Type} {s : State} {p : Port} {need : Standing} {args : Option α} {body : α → State → State × Reply}

/-- A command outside an open frame does nothing. -/
theorem command_ignored (h : s.takesHeader p = false) : s.command p need args body = s := by
  simp [State.command, h]

/-- A command that the standing of its port refuses is answered so. -/
theorem command_refused {c : Code} (h : s.takesHeader p = true) (hc : s.standingRefusal need p = some c) :
    s.command p need args body = s.respond p ⟨c, []⟩ := by
  simp [State.command, h, hc, Reply.plain]

/-- A command whose arguments lie outside their ranges is answered BAD ARGUMENT. -/
theorem command_bad (h : s.takesHeader p = true) (hc : s.standingRefusal need p = none) (ha : args = none) :
    s.command p need args body = s.respond p ⟨.badArgument, []⟩ := by
  simp [State.command, h, hc, ha, Reply.plain]

/-- A command that passes the common checks acts and is answered. -/
theorem command_taken {a : α} (h : s.takesHeader p = true) (hc : s.standingRefusal need p = none) (ha : args = some a) :
    s.command p need args body = (body a s).1.respond p (body a s).2 := by
  simp [State.command, h, hc, ha]

@[simp] theorem standing_any : s.standingRefusal .any p = none := by simp [State.standingRefusal]

theorem standing_session (h : (s.port p).attached = true) : s.standingRefusal .session p = none := by
  simp [State.standingRefusal, h]

theorem standing_supervisor (hs : s.supervisor = p) (h : (s.port p).attached = true) :
    s.standingRefusal .supervisor p = none := by
  simp [State.standingRefusal, h, hs]

/-- An address in range is taken as it is (R75). -/
theorem addressArg_eq {b : Byte} : addressArg b = if noAddress b then none else some b := by
  revert b
  decide +kernel

end Sys2Proof.Machine
end

