-- ==== Sys2Proof/Laws/Completions.lean ====
section
/-! SUPPORT. The completions of slots read neither the entries, the monitor nor the engine, and of the targets no more than
address and lock record: they commute with a change of those. -/

namespace Sys2Proof.Machine

open Sys2Proof

/-- The state with other entries, targets, monitor and engine. -/
def State.beside (s : State) (es : Vector MirrorEntry 24) (ts : Vector (Option Target) 32) (m : Monitor) (g : Engine) : State :=
  { s with entries := es, targets := ts, monitor := m, engine := g }

/-- What the completions read of a target: its address and its lock record (R36). -/
def Target.lockRecord (x : Target) : Byte × Option Hold × List Waiter := (x.addr, x.lock, x.waiters)

variable (s : State) (es : Vector MirrorEntry 24) (ts : Vector (Option Target) 32) (m : Monitor) (g : Engine)

@[simp] theorem request_beside (n : SlotId) : (s.beside es ts m g).request n = s.request n := rfl
@[simp] theorem list_beside (p : Port) : (s.beside es ts m g).list p = s.list p := rfl

theorem offer_beside (n : Notice) (p : Port) : (s.beside es ts m g).offer n p = (s.offer n p).beside es ts m g := by
  simp only [State.offer, show (s.beside es ts m g).port p = s.port p from rfl,
    show (s.beside es ts m g).noticePort p = s.noticePort p from rfl]
  split <;> rfl

theorem offerTo_beside (n : Notice) (ps : List Port) :
    (s.beside es ts m g).offerTo n ps = (s.offerTo n ps).beside es ts m g := by
  simp only [State.offerTo]
  induction ps generalizing s with
  | nil => rfl
  | cons p ps ih => simp only [List.foldl_cons, offer_beside, ih]

theorem freeSlotOf_beside (n : SlotId) : (s.beside es ts m g).freeSlotOf n = (s.freeSlotOf n).beside es ts m g := by
  simp only [State.freeSlotOf, request_beside]
  cases s.request n <;> rfl

/-- The completion of a slot (R13, R14, R23). -/
theorem completeSlot_beside (n : SlotId) (x : Result) :
    (s.beside es ts m g).completeSlot n x = (s.completeSlot n x).beside es ts m g := by
  simp only [State.completeSlot, request_beside]
  cases s.request n with
  | none => rfl
  | some r =>
    simp only [show (s.beside es ts m g).finishSlot n r x = (s.finishSlot n r x).beside es ts m g from rfl,
      show (s.beside es ts m g).completedNotice n r x = s.completedNotice n r x from rfl, offer_beside]
    cases r.orphan <;> cases r.desc.notify <;> cases r.desc.autoRelease <;> simp [freeSlotOf_beside]

/-- The bulk completions without a transfer (R14). -/
theorem completeQueuedAll_beside (c : Request → Bool) (o : TransferOutcome) :
    (s.beside es ts m g).completeQueuedAll c o = (s.completeQueuedAll c o).beside es ts m g := by
  have one : ∀ (s : State) p, (s.beside es ts m g).completeQueued p c o = (s.completeQueued p c o).beside es ts m g := by
    intro s p
    simp only [State.completeQueued, show (s.beside es ts m g).queuedSuch p c = s.queuedSuch p c from rfl]
    generalize s.queuedSuch p c = k
    induction k generalizing s with
    | nil => rfl
    | cons n k ih => simp only [List.foldl_cons, completeSlot_beside, ih]
  simp only [State.completeQueuedAll]
  generalize Port.all = l
  induction l generalizing s with
  | nil => rfl
  | cons p l ih => simp only [List.foldl_cons, one, ih]

variable {s ts}

/-- The lock record at an address (R93). -/
theorem targetAt_beside (h : ∀ t, (ts.get t).map Target.lockRecord = (s.target t).map Target.lockRecord) (a : Byte) :
    ((s.beside es ts m g).targetAt a).map Target.lockRecord = (s.targetAt a).map Target.lockRecord := by
  have hf : (s.beside es ts m g).findTarget a = s.findTarget a := by
    simp only [State.findTarget]
    congr 1
    funext t
    have ht := h t
    change Option.any _ (ts.get t) = _
    cases h1 : ts.get t <;> cases h2 : s.target t <;> simp_all [Target.lockRecord]
  simp only [State.targetAt, hf]
  cases s.findTarget a with
  | none => rfl
  | some t => exact h t

/-- Whether a NOT LOCKED completion is due (R36). -/
theorem notLockedDue_beside (h : ∀ t, (ts.get t).map Target.lockRecord = (s.target t).map Target.lockRecord) (p : Port)
    (n : SlotId) : (s.beside es ts m g).notLockedDue p n = s.notLockedDue p n := by
  have hh : ∀ a, (s.beside es ts m g).holderAt a = s.holderAt a := fun a => by
    have ha := targetAt_beside es m g h a
    simp only [State.holderAt]
    cases h1 : (s.beside es ts m g).targetAt a <;> cases h2 : s.targetAt a <;> simp_all [Target.lockRecord]
  have hw : ∀ a, (s.beside es ts m g).waitsAt p a = s.waitsAt p a := fun a => by
    have ha := targetAt_beside es m g h a
    simp only [State.waitsAt]
    cases h1 : (s.beside es ts m g).targetAt a <;> cases h2 : s.targetAt a <;> simp_all [Target.lockRecord, Target.awaits]
  simp only [State.notLockedDue, State.lockHolds, hh, hw]
  rfl

/-- The NOT LOCKED completions of every port, where the lock records stay as they are (R36). -/
theorem notLockedAll_beside (h : ∀ t, (ts.get t).map Target.lockRecord = (s.target t).map Target.lockRecord) :
    (s.beside es ts m g).notLockedAll = s.notLockedAll.beside es ts m g := by
  have one : ∀ (s : State) p, (∀ t, (ts.get t).map Target.lockRecord = (s.target t).map Target.lockRecord) →
      (s.beside es ts m g).notLockedOf p = (s.notLockedOf p).beside es ts m g := by
    intro s p h
    simp only [State.notLockedOf, list_beside]
    generalize s.list p = k
    induction k generalizing s with
    | nil => rfl
    | cons n k ih =>
      simp only [List.foldl_cons, completeSlot_beside, notLockedDue_beside es m g h]
      split
      · exact ih _ fun t => by rw [h t]; simp [State.target]
      · exact ih _ h
  simp only [State.notLockedAll]
  generalize Port.all = l
  induction l generalizing s with
  | nil => rfl
  | cons p l ih =>
    rw [List.foldl_cons, List.foldl_cons, one s p h]
    exact ih fun t => by rw [h t]; simp [State.target]

end Sys2Proof.Machine
end

