-- ==== Sys2Proof/Laws/Signals.lean ====
section
/-! SUPPORT. The conditions on the field bus: when FDA moves, what a byte carries, and that the ends and the progress that the
events tell are those of the conditions. -/

namespace Sys2Proof.Machine

open Sys2Proof

/-! ## Conditions (Table 6-1) -/

/-- The changes of FDA that a sequence of levels makes while FCL is high. -/
def highChanges (l : Lines) : List Lines → Nat
  | [] => 0
  | m :: rest => (if l.fcl && m.fcl && (l.fda != m.fda) then 1 else 0) + highChanges m rest

/-- A condition ends with its levels (Table 6-1). -/
theorem Condition.levels_getLast (l : Lines) (c : Condition) : (c.levels l).getLast? = some c.after := by
  cases c <;> rfl

/-- FDA is still while FCL is high in every bit, whatever the levels before it (R110). -/
theorem Condition.bit_still {c : Condition} (h : c.bit ≠ none) (l : Lines) : highChanges l (c.levels l) = 0 := by
  cases c <;> simp [Condition.bit] at h <;> simp [Condition.levels, pulse, highChanges, Condition.after, Condition.bit]

/-- A START, a repeated START and a STOP change FDA once while FCL is high (R110). -/
theorem Condition.frame_changes (l : Lines) :
    highChanges ⟨true, true⟩ (Condition.start.levels ⟨true, true⟩) = 1
      ∧ highChanges l (Condition.repeatedStart.levels l) = 1 ∧ highChanges l (Condition.stop.levels l) = 1 := by
  simp [Condition.levels, pulse, highChanges, Condition.after]

/-- A line that the engine pulls reads low (R110). -/
theorem Condition.fda_low_of_pulls {c : Condition} (h : c.pulls = true) : c.after.fda = false := by
  cases c <;> simp_all [Condition.pulls, Condition.after, Condition.bit]

/-- The lines after a START, and after a STOP, are those that START and the move to FREE write (R110, R115). -/
theorem lines_after : linesAfterStart = Condition.start.after ∧ linesHigh = Condition.stop.after := ⟨rfl, rfl⟩

/-! ## Bytes -/

/-- Reading back the bits of a byte gives the byte, and goes on with the bits after it (R110). -/
theorem octets_msbFirst_append (b : Byte) (rest : List Bool) : octets (msbFirst b ++ rest) = b :: octets rest := by
  have h : octets (msbFirst b) = [b] := by revert b; decide +kernel
  exact congrArg (· :: octets rest) (List.cons.inj h).1

/-- Reading back the bits of bytes gives the bytes. -/
theorem octets_flatMap (bytes : List Byte) : octets (bytes.flatMap msbFirst) = bytes := by
  induction bytes with
  | nil => rfl
  | cons b rest ih => rw [List.flatMap_cons, octets_msbFirst_append, ih]

@[simp] theorem targetAcks_append (l m : List Condition) : targetAcks (l ++ m) = targetAcks l + targetAcks m :=
  List.count_append
@[simp] theorem bitsRead_append (l m : List Condition) : bitsRead (l ++ m) = bitsRead l ++ bitsRead m :=
  List.filterMap_append

/-- Bits that the engine sends are neither acknowledges nor bits read. -/
@[simp] theorem sendBits_spec (bits : List Bool) :
    targetAcks (bits.map .sendBit) = 0 ∧ bitsRead (bits.map .sendBit) = [] := by
  simp [targetAcks, bitsRead, List.count_eq_zero]

/-- Bits that the engine reads are bits read. -/
@[simp] theorem readBits_spec (bits : List Bool) :
    targetAcks (bits.map .readBit) = 0 ∧ bitsRead (bits.map .readBit) = bits := by
  simp [targetAcks, bitsRead, List.count_eq_zero, List.filterMap_map]

/-- What a received byte brings: its bits, and no acknowledge of a target. -/
@[simp] theorem readByte_spec (b : Byte) (ack : Bool) :
    targetAcks (readByte b ack) = 0 ∧ bitsRead (readByte b ack) = msbFirst b := by
  simp [readByte, show targetAcks [.engineAck ack] = 0 from rfl, show bitsRead [.engineAck ack] = [] from rfl]

/-- What a transmitted byte brings: the target's acknowledge. -/
@[simp] theorem sendByte_spec (b : Byte) (ack : Bool) :
    targetAcks (sendByte b ack) = ack.toNat ∧ bitsRead (sendByte b ack) = [] := by
  cases ack <;> simp [sendByte] <;> constructor <;> rfl

/-- What a read phase brings: the bits of its bytes, and no acknowledge of a target. -/
@[simp] theorem readBytes_spec (data : List Byte) :
    targetAcks (readBytes data) = 0 ∧ bitsRead (readBytes data) = data.flatMap msbFirst := by
  induction data using readBytes.induct with
  | case1 => exact ⟨rfl, rfl⟩
  | case2 b => simp [readBytes]
  | case3 b c rest ih => simp [readBytes, ih]

/-- The conditions that go before a transmitted byte are at most a START or a repeated START. -/
theorem sent_lead {w : BusWork} {x : List Condition × Byte} (h : x ∈ w.sent) : targetAcks x.1 = 0 ∧ bitsRead x.1 = [] := by
  unfold BusWork.sent at h
  have hr : targetAcks [.repeatedStart] = 0 ∧ bitsRead [.repeatedStart] = [] := ⟨rfl, rfl⟩
  have hs : targetAcks [.start] = 0 ∧ bitsRead [.start] = [] := ⟨rfl, rfl⟩
  have hn : targetAcks [] = 0 ∧ bitsRead [] = [] := ⟨rfl, rfl⟩
  split at h <;> aesop

/-- What transmitted bytes bring: an acknowledge of the target for each, where it answers so. -/
theorem sendAll_spec (ack : Bool) {bytes : List (List Condition × Byte)}
    (h : ∀ x ∈ bytes, targetAcks x.1 = 0 ∧ bitsRead x.1 = []) :
    targetAcks (sendAll ack bytes) = ack.toNat * bytes.length ∧ bitsRead (sendAll ack bytes) = [] := by
  induction bytes with
  | nil => exact ⟨rfl, rfl⟩
  | cons x rest ih =>
    have hr := ih fun y hy => h y (List.mem_cons_of_mem _ hy)
    have hx := h x List.mem_cons_self
    simp only [sendAll, List.flatMap_cons, targetAcks_append, bitsRead_append] at hr ⊢
    simp [hr, hx, Nat.mul_add, Nat.add_comm]

/-- What the beginning of transmitted bytes brings: nothing. -/
theorem sendBegun_spec (j : Nat) {bytes : List (List Condition × Byte)}
    (h : ∀ x ∈ bytes, targetAcks x.1 = 0 ∧ bitsRead x.1 = []) :
    targetAcks (bytes.flatMap fun x => x.1 ++ ((msbFirst x.2).take j).map .sendBit) = 0
      ∧ bitsRead (bytes.flatMap fun x => x.1 ++ ((msbFirst x.2).take j).map .sendBit) = [] := by
  induction bytes with
  | nil => exact ⟨rfl, rfl⟩
  | cons x rest ih =>
    have hr := ih fun y hy => h y (List.mem_cons_of_mem _ hy)
    have hx := h x List.mem_cons_self
    simp only [List.flatMap_cons, targetAcks_append, bitsRead_append, hr, hx, sendBits_spec]
    simp

/-! ## Courses -/

/-- How many bytes an address attempt transmits (Table 6-4). -/
theorem sent_length (w : BusWork) : w.sent.length = match w.kind with
    | .write => 1 + w.index.length + w.data.length
    | .indexedRead => 2 + w.index.length
    | .read | .probe => 1 := by
  unfold BusWork.sent
  cases w.kind <;> simp <;> omega

/-- What each course brings: the target's acknowledges, and the data bits read; at a loss, the bit that another master drove. -/
theorem signals_spec (w : BusWork) (c : Course) :
    targetAcks (w.signals c) = (match c with
      | .ran _ => w.sent.length
      | .refused k | .lost k _ => min k w.sent.length
      | .stopped k => min (k + 1) w.sent.length)
      ∧ bitsRead (w.signals c) = (match c with
        | .ran data => data.flatMap msbFirst
        | .refused _ | .stopped _ => []
        | .lost _ _ => [false]) := by
  have hall := sendAll_spec true fun _ => sent_lead (w := w)
  have htake := fun k => sendAll_spec true fun _ hx => sent_lead (w := w) (List.mem_of_mem_take (i := k) hx)
  have hdrop := fun k x hx => sent_lead (w := w) (x := x) (List.mem_of_mem_drop (i := k) (List.mem_of_mem_take (i := 1) hx))
  have hstop : targetAcks [.stop] = 0 ∧ bitsRead [.stop] = [] := ⟨rfl, rfl⟩
  have hlost : targetAcks [.readBit false] = 0 ∧ bitsRead [.readBit false] = [false] := ⟨rfl, rfl⟩
  cases c with
  | ran data => simp only [BusWork.signals, targetAcks_append, bitsRead_append, hall, readBytes_spec, hstop]; simp
  | refused k =>
    simp only [BusWork.signals, targetAcks_append, bitsRead_append, htake, sendAll_spec false (hdrop k), hstop]; simp
  | stopped k => simp only [BusWork.signals, targetAcks_append, bitsRead_append, htake, hstop]; simp
  | lost k j =>
    simp only [BusWork.signals, targetAcks_append, bitsRead_append, htake, sendBegun_spec j (hdrop k), hlost]; simp

/-- An attempt whose every byte was acknowledged has written what there was to write, and read the bytes told (R122, R123). -/
theorem progress_ran (w : BusWork) (data : List Byte) : w.progress (w.signals (.ran data))
    = ⟨true, if w.kind = .write then w.data.length else 0, data⟩ := by
  have hl := sent_length w
  simp only [BusWork.progress, signals_spec, octets_flatMap, Progress.mk.injEq, and_true, decide_eq_true_eq]
  cases hk : w.kind <;> simp only [hk] at hl <;> (simp [hl]; try omega)

/-- The lines at the end of an attempt: high after its STOP, and after a loss FDA low under the other master while FCL is high,
as the monitor then holds them (R110, R115, R124). -/
theorem signals_after (w : BusWork) (c : Course) : ((w.signals c).getLast?).map Condition.after = some (match c with
    | .ran _ | .refused _ | .stopped _ => linesHigh
    | .lost _ _ => linesAfterStart) := by
  cases c <;> simp [BusWork.signals, Condition.after, Condition.bit, linesHigh, linesAfterStart]

/-- A loss on a transmitted byte is one that ARBITRATION_LOSS takes, with the progress of its conditions (R124). -/
theorem losesAfter_lost (w : BusWork) {k : Nat} (j : Nat) (h : k < w.sent.length) :
    w.shape.losesAfter false (w.progress (w.signals (.lost k j))) = true := by
  have hl := sent_length w
  simp only [Shape.losesAfter, BusWork.shape, BusWork.progress, signals_spec, Nat.min_eq_left (Nat.le_of_lt h)]
  cases hk : w.kind <;> simp only [hk] at hl <;> simp [octets] <;> omega

/-- Bits carry as many whole bytes as eight goes into them. -/
theorem octets_length (bits : List Bool) : (octets bits).length = bits.length / 8 := by
  induction bits using octets.induct with
  | case1 b7 b6 b5 b4 b3 b2 b1 b0 rest ih => simp only [octets, List.length_cons, ih]; omega
  | case2 bits h =>
    rw [octets]
    · rcases bits with _ | ⟨a, _ | ⟨b, _ | ⟨c, _ | ⟨d, _ | ⟨e, _ | ⟨f, _ | ⟨g, _ | ⟨i, r⟩⟩⟩⟩⟩⟩⟩⟩ <;> simp
      exact (h a b c d e f g i r rfl).elim
    · exact h

/-- What is read by any point of an address attempt: no more than the bytes told, and nothing before the last byte to be
transmitted was acknowledged (R123). -/
theorem cut_read (w : BusWork) (c : Course) (n : Nat) (h : octets (bitsRead ((w.signals c).take n)) ≠ []) :
    ∃ data, c = .ran data ∧ (octets (bitsRead ((w.signals c).take n))).length ≤ data.length
      ∧ targetAcks ((w.signals c).take n) = w.sent.length := by
  have hs := (signals_spec w c).2
  have hle : (bitsRead ((w.signals c).take n)).length ≤ (bitsRead (w.signals c)).length :=
    ((List.take_sublist n _).filterMap _).length_le
  have hmany : 8 ≤ (bitsRead ((w.signals c).take n)).length := by
    have := List.length_pos_iff.2 h
    rw [octets_length] at this; omega
  cases c with
  | refused k | stopped k | lost k j => rw [hs] at hle; exact absurd (hmany.trans hle) (by simp)
  | ran data =>
    refine ⟨data, rfl, ?_, ?_⟩
    · rw [hs] at hle
      have := Nat.div_le_div_right (c := 8) hle
      rwa [← octets_length, ← octets_length, octets_flatMap] at this
    · have hall := sendAll_spec true fun _ => sent_lead (w := w)
      have hno : bitsRead ((sendAll true w.sent).take n) = [] :=
        List.eq_nil_of_sublist_nil (hall.2 ▸ (List.take_sublist n _).filterMap _)
      simp only [BusWork.signals, List.append_assoc, List.take_append, bitsRead_append, targetAcks_append, hno] at hmany ⊢
      have hn : (sendAll true w.sent).length ≤ n := by
        by_contra hc
        simp [Nat.sub_eq_zero_of_le (Nat.le_of_lt (Nat.lt_of_not_le hc)), bitsRead] at hmany
      have hz : targetAcks ((readBytes data ++ [Condition.stop]).take (n - (sendAll true w.sent).length)) ≤ 0 := by
        refine ((List.take_sublist _ _).count_le _).trans ?_
        show targetAcks (readBytes data ++ [Condition.stop]) ≤ 0
        simp only [targetAcks_append, readBytes_spec]; exact Nat.le_refl _
      simp only [List.take_append] at hz
      rw [List.take_of_length_le hn, hall.1]
      simp at hz ⊢; omega

/-- A transfer cut short after any number of its conditions has come as far as STRETCH_TIMEOUT takes it to have come (R125). -/
theorem reaches_cut (w : BusWork) (c : Course) (n : Nat)
    (h : ∀ data, c = .ran data → data.length ≤ w.read ∧ (w.kind = .write ∨ w.kind = .probe → data = [])) :
    w.shape.reaches false (w.progress ((w.signals c).take n)) = true := by
  have hl := sent_length w
  have hle : targetAcks ((w.signals c).take n) ≤ w.sent.length := by
    refine ((List.take_sublist n _).count_le _).trans ?_
    show targetAcks (w.signals c) ≤ _
    rw [(signals_spec w c).1]; cases c <;> simp
  have hr := cut_read w c n
  have hk : w.kind = .write ∨ w.kind = .read ∨ w.kind = .indexedRead ∨ w.kind = .probe := by cases w.kind <;> simp
  simp only [Shape.reaches, BusWork.shape, BusWork.progress]
  by_cases ho : octets (bitsRead ((w.signals c).take n)) = []
  · rcases hk with hk | hk | hk | hk <;> simp only [hk] at hl <;> simp [hk, ho]
    split <;> omega
  · obtain ⟨data, rfl, hd, ha⟩ := hr ho
    obtain ⟨h1, h2⟩ := h data rfl
    rcases hk with hk | hk | hk | hk <;> simp only [hk] at hl <;> simp [hk] at h2
    · simp_all
    · simp [hk, ha, hl]; omega
    · simp [hk, ha, hl]; omega
    · simp_all

/-- What TRANSFER_COMPLETION tells of a course is an end that the transfer can have: with the flag set, where the course has
the engine honour it (R119, R122, R123, R126, R127). -/
theorem told_reported {w : BusWork} {c : Course} {how : TransferEnd} (h : w.told c = some how) (hn : how ≠ .addressNack)
    {abort : Bool} (ha : ∀ n d, how = .aborted n d → abort = true) : (w.shape.report abort false how).isSome = true := by
  have hl := sent_length w
  cases c with
  | lost k j => simp [BusWork.told] at h
  | ran data =>
    simp only [BusWork.told] at h
    split at h
    · cases h; simp_all [Shape.report, BusWork.shape]
    · split at h
      · cases h
        obtain ⟨b, rest, rfl⟩ := List.exists_cons_of_ne_nil (by tauto : data ≠ [])
        simp_all [Shape.report, BusWork.shape]
      · cases h
  | refused k =>
    simp only [BusWork.told] at h
    split at h
    · cases h
    · split at h
      · cases h; exact absurd rfl hn
      · cases h
        cases hk : w.kind <;> simp_all [Shape.report, BusWork.shape, Shape.stopsAfter, BusWork.addressAt] <;> omega
  | stopped k =>
    simp only [BusWork.told] at h
    split at h
    · cases h
      cases hk : w.kind <;> simp_all [Shape.report, BusWork.shape, Shape.stopsAfter] <;> omega
    · cases h

/-- A course that ends with a STOP and no address NACK is the end of the transfer: TRANSFER_COMPLETION, told of it, makes a
report (R119). -/
theorem endTransfer_told {s : State} {t : Transfer} {w : BusWork} {c : Course} {how : TransferEnd}
    (hw : s.busWork t.work = some w) (h : w.told c = some how) (hn : how ≠ .addressNack)
    (ha : ∀ n d, how = .aborted n d → s.abortPending t.work = true) (hf : s.abortStands t = false) :
    ∃ r, s.endTransfer t how = s.finishTransfer t.work r := by
  obtain ⟨r, hr⟩ := Option.isSome_iff_exists.1 (told_reported h hn ha)
  refine ⟨r, ?_⟩
  cases how <;> simp_all [State.endTransfer, State.shape]

/-! ## Recovery attempts -/

/-- An attempt succeeds exactly where its STOP leaves both lines high (R128). -/
theorem attempt_succeeds_iff (a : Attempt) : bothHigh a.told = true ↔ ∃ k, a = .ended k ⟨true, true⟩ := by
  rcases a with ⟨k, fda⟩ | ⟨k, ⟨fcl, fda⟩⟩ <;> simp [Attempt.told, bothHigh]

/-- A STOP comes about in an attempt that is not held by FCL and leaves FDA high, and in no other (R128). -/
theorem attempt_stop_iff (a : Attempt) : Condition.stop ∈ a.signals ↔ ∃ k lines, a = .ended k lines ∧ lines.fda = true := by
  rcases a with ⟨k, fda⟩ | ⟨k, lines⟩
  · simp [Attempt.signals, freeingPulses]
  · cases h : lines.fda <;> simp [Attempt.signals, freeingPulses, h]

/-- The levels of an attempt that makes its STOP end in those that RECOVERY_ATTEMPT_END carries, and so do those of one that
FCL ends at once (R128). -/
theorem attempt_levels_getLast (l : Lines) (a : Attempt) : (a.levels l).getLast? = some a.told := by
  have hwave : ∀ (cs : List Condition) (l : Lines) (c : Condition), (wave l (cs ++ [c])).getLast? = some c.after := by
    intro cs
    induction cs with
    | nil => intro l c; simp [wave, Condition.levels_getLast]
    | cons d ds ih => intro l c; simp [wave, List.getLast?_append, ih]
  rcases a with ⟨k, fda⟩ | ⟨k, ⟨fcl, fda⟩⟩
  · simp [Attempt.levels, Attempt.told]
  · cases fcl
    · simp [Attempt.levels, Attempt.told]
    · cases fda <;>
        simp [Attempt.levels, Attempt.signals, Attempt.told, hwave, Condition.after, Condition.bit]

/-- RECOVERY_ATTEMPT_END told of an attempt ends it: with success for a STOP that leaves both lines high, and with a failure
otherwise (R128). -/
theorem recoveryAttemptEnd_told {s : State} (a : Attempt) (hr : s.inReset = false) (he : s.engine = .recovery true) :
    execRecoveryAttemptEnd a.told s = .next (s.endAttempt a.told) := by
  simp [execRecoveryAttemptEnd, State.event, hr, he]

end Sys2Proof.Machine
end

