-- ==== Sys2Proof/Tests/Slice0.lean ====
section
/-! SUPPORT. Tests: ill-formed terms, headers and check bytes as the manual writes them out, single commands on a small state, and
for every statement of Certificates/Slice0/Obligations.lean that has hypotheses a state and operands that meet them. -/

namespace Sys2Proof.Tests

set_option Elab.async false

open Sys2Proof Sys2Proof.Machine

/-! ## A small device

H0 (the supervisor) and H1 are attached, with a frame open in HEADER; so is H2's frame, without a session. Target 48h is ONLINE at
index 0, slot 0 holds H0's WRITE to it, QUEUED, and mirror entry 0 is H0's. The monitor is UNKNOWN, as after reset. -/

def x48 : Target := ⟨0x48#8, .khz100, 10, 2, 500, 0xF#4, 0xF#4, .online, 0, none, none, none, none, []⟩
def x49 : Target := { x48 with addr := 0x49#8, health := .suspect, failures := 1 }
def x4A : Target :=
  { x48 with addr := 0x4A#8, health := .quarantined, failures := 2, probeDue := some 500, probeTimer := some ⟨0, 500⟩ }
def write48 : Descriptor := ⟨.write, 0x48#8, [], [0xA5#8, 0x5A#8], 0, .normal, true, false, false, false⟩
def req : Request := ⟨.queued, .h0, 1#8, false, write48, .normal, 0, 0, 0, false⟩
def key48 : Key := ⟨0x48#8, [0x10#8], 2⟩
def keyArgs48 : KeyArgs := ⟨0x48#8, 1#8, 0x10#8, 0#8, 0#8, 2#8⟩
def sponsor : Sponsor := ⟨100, true, 0xFFFF#16⟩
def use48 : MirrorUse where
  key := key48
  sponsors := ⟨some sponsor, none, none, none⟩
  state := .priming
  nextDue := none
  lastStart := none
  value := none
  seqNo := 0#16
  lastOutcome := none
  dueTimer := none
  staleTimer := none
  pending := some ⟨.normal, 0, 0, 0, false⟩
  dueAfterRun := none

def openPort (attached : Bool) : HostPort :=
  { HostPort.atReset true with attached := attached, generation := 1#8, frame := .header, statusOut := some 0x02#8 }

/-- The device after reset with its ports as said, and nothing else. -/
def bare : State :=
  { State.reset with
    pending := [.millisecondBoundary]
    ports := ⟨openPort true, openPort true, openPort false, HostPort.atReset false⟩ }

def world : State := (((bare.setList .h0 [0]).setSlot 0 ⟨1#8, some req⟩).setEntry 0 ⟨1#8, some use48⟩).setTarget 0 (some x48)

/-- The small device with its lock of target 48h held by H0, and H1 waiting. -/
def locked : State :=
  world.setTarget 0 (some { x48 with lock := some ⟨.h0, ⟨0, 100⟩⟩, waiters := [⟨.h1, 2000⟩] })

/-- The small device with the monitor in a state. -/
def inState (m : MonitorState) : State := world.setMonitor { world.monitor with state := m }

/-- The small device with slot 0's transfer on the engine. -/
def running (m : MonitorState) : State :=
  ((inState m).setEngine (.transfer ⟨.request 0, .khz100, 10, 1, none, false⟩)).setSlot 0 ⟨1#8, some { req with state := .active }⟩

/-! ## Terms that stand for no command, and headers as the manual writes them -/

/-- SUBMIT as the manual writes it out: WRITE to 4Ch of register 10h with data A5h 5Ah (section 10.5, R181). -/
def submitExample : SubmitArgs := ⟨0x14#8, 0x4C#8, 0x42#8, 0x00#8, [0x10#8, 0xA5#8, 0x5A#8]⟩

theorem test_ill_formed_submit : Instr.wellFormed (.submit .h0 { submitExample with tail := [] }) = false := by decide +kernel
theorem test_ill_formed_unknown_command : Instr.wellFormed (.unknownCommand .h0 0x01#8) = false := by decide +kernel
/-- The check refuses them. -/
theorem test_ill_formed_refused : exec (.unknownCommand .h0 0x01#8) world = .refused .illFormed := by rfl
/-- Table 10-2. -/
theorem test_check_bytes : crc8 [0x01#8] = 0xF4#8 ∧ crc8 [0x02#8] = 0xFD#8 ∧ crc8 [0x05#8] = 0xE8#8
    ∧ crc8 [0x06#8, 0x04#8] = 0xB5#8 ∧ crc8 [0x01#8, 0x09#8] = 0xFD#8 := by decide +kernel
/-- Table 10-2. -/
theorem test_decode_written_headers : decodeHeader .h1 [0x01#8, 0xF4#8] = some (.info .h1)
    ∧ decodeHeader .h0 [0x02#8, 0xFD#8] = some (.status .h0) ∧ decodeHeader .h0 [0x05#8, 0xE8#8] = some (.repeatResponse .h0)
    ∧ decodeHeader .h2 [0x06#8, 0x04#8, 0xB5#8] = some (.getParameter .h2 0x04#8) := by decide +kernel
/-- Section 10.5, R181. -/
theorem test_decode_submit : decodeBody .h0 [0x10#8, 0x14#8, 0x4C#8, 0x42#8, 0x00#8, 0x10#8, 0xA5#8, 0x5A#8]
      = some (.submit .h0 submitExample)
    ∧ descriptorArg submitExample
      = some ⟨.write, 0x4C#8, [0x10#8], [0xA5#8, 0x5A#8], 0, .normal, true, false, false, false⟩ := by decide +kernel
/-- Tables 10-3 and 10-4, a header of each family of commands. -/
theorem test_decode_families : decodeBody .h0 [0x11#8, 0xCB#8, 0x05#8] = some (.cancel .h0 0xCB05#16)
    ∧ decodeBody .h0 [0x12#8, 0x45#8, 0x07#8, 0x01#8] = some (.fetch .h0 0x4507#16 0x01#8)
    ∧ decodeBody .h0 [0x19#8, 0x7F#8] = some (.setNoticeMask .h0 0x7F#8)
    ∧ decodeBody .h0 [0x20#8, 0x48#8, 0x01#8, 0xF4#8, 0x01#8] = some (.lock .h0 0x48#8 500#16 0x01#8)
    ∧ decodeBody .h0 [0x28#8, 0x48#8, 0x01#8, 0x10#8, 0x00#8, 0x00#8, 0x02#8, 0x00#8, 0x64#8, 0x01#8, 0xFF#8, 0xFF#8]
      = some (.mirrorDefine .h0 keyArgs48 100#16 0x01#8 0xFFFF#16)
    ∧ decodeBody .h0 [0x30#8, 0x48#8] = some (.targetQuery .h0 0x48#8)
    ∧ decodeBody .h0 [0x40#8, 0x48#8, 0x02#8, 0x00#8, 0x02#8, 0x01#8, 0xF4#8, 0x0F#8, 0x01#8]
      = some (.declareTarget .h0 ⟨0x48#8, 0x02#8, 0x00#8, 0x02#8, 500#16, 0x0F#8, 0x01#8⟩)
    ∧ decodeBody .h0 [0x44#8, 0x04#8, 0x00#8, 0x32#8] = some (.setParameter .h0 0x04#8 50#16) := by decide +kernel
/-- Section 10.6: the tickets (H3, 11, 5) and (H1, 5, 7). -/
theorem test_tickets : ticketOf .h3 11 5#8 = 0xCB05#16 ∧ ticketOf .h1 5 7#8 = 0x4507#16 := by decide +kernel
/-- No word of the table spells a command. -/
theorem test_no_table_word : decodeTableWord 8 0x01 = none := by decide

/-! ## Single commands -/

/-- A field of the state that a command or an event leaves. -/
def after {α : Type} (c : Instr) (s : State) (f : State → α) : Option α :=
  match exec c s with
  | .next t => some (f t)
  | _ => none

/-- A SUBMIT takes the lowest FREE slot, at the tail of the list, and answers its ticket (R3, R11). -/
theorem test_submit : after (.submit .h0 { submitExample with addr := 0x48#8 }) world
    (fun t => (t.list .h0, (t.port .h0).response.map (·.take 4))) = some ([0, 1], some [0x03#8, 0x02#8, 0x01#8, 0x01#8]) := by
  decide +kernel
/-- A lock passes to the oldest waiter, with its lease clamped to 1000 ms (R104). -/
theorem test_unlock_passes : after (.unlock .h0 0x48#8) locked (fun t => (t.targetAt 0x48#8).map fun x => (x.lock, x.waiters))
    = some (some (some ⟨.h1, ⟨0, 1000⟩⟩, [])) := by decide +kernel
/-- Two failures quarantine a target whose threshold is 2 (R85, R88). -/
theorem test_quarantine : ((world.setTarget 0 (some { x48 with health := .suspect, failures := 1 })).account 0x48#8 .addressNack
    false).target 0 = some { x48 with
      health := .quarantined, failures := 2, probeTimer := some ⟨0, 500⟩, probeDue := some 500 } := by decide +kernel
/-- The idle confirmation takes the monitor to FREE, and the dispatcher starts H0's write (R29, R114). -/
theorem test_first_selection : after .idleConfirmationExpiry { world with now := 1 }
    (fun t => (t.engine, t.monitor.state, (t.request 0).map Request.state))
      = some (.transfer ⟨.request 0, .khz100, 10, 0, none, false⟩, .free, some .active) := by decide +kernel
/-- A transfer that finishes leaves its result, and the poll of entry 0 starts (R13, R43, R59). -/
theorem test_completion : after (.transferCompletion (.finished [])) (running .owned)
    (fun t => ((t.request 0).map Request.state, t.list .h0, (t.entryUse 0).map MirrorUse.nextDue))
      = some (some (.done ⟨.ok, 2, []⟩), [], some (some 100)) := by decide +kernel
/-- With abort-pending set since START a WRITE stops at its address byte, and does not finish (R126). -/
theorem test_flag_before_start :
    let s := ((running .owned).setEngine (.transfer ⟨.request 0, .khz100, 10, 1, none, true⟩)).setSlot 0
      ⟨1#8, some { req with state := .active, abortPending := true }⟩
    after (.transferCompletion (.aborted 0 [])) s (fun t => (t.request 0).map Request.state)
        = some (some (.done ⟨.aborted, 0, []⟩))
      ∧ after (.transferCompletion (.finished [])) s (fun t => t.engine) = some s.engine := by decide +kernel
/-- A START seen in the wait between two recovery attempts ends the sequence and stops the hang timer (R129). -/
theorem test_start_in_the_wait : after .foreignStart
    ((world.setEngine (.recovery false)).setMonitor { world.monitor with state := .recovering, failed := 1, hang := some ⟨0, 25⟩ })
    (fun t => (t.engine, t.monitor.state, t.monitor.failed, t.monitor.hang)) = some (.idle, .foreign, 0, none) := by
  decide +kernel
/-- An expired lease ends the lock with LOCK ENDED to its holder, and LOCK GRANTED to the waiter (R99, R104). -/
theorem test_lease_expires : after (.lockLeaseExpiry 0) { locked with now := 100 }
    (fun t => ((t.noticePort .h0).queue, (t.noticePort .h1).queue))
      = some ([.lockEnded 0x48#8 .expired], [.lockGranted 0x48#8 1000]) := by decide +kernel
/-- An UNDER LOCK request from a port that neither holds nor waits completes NOT LOCKED in its own SUBMIT (R36). -/
theorem test_not_locked : after (.submit .h0 { submitExample with control := 0x54#8, addr := 0x48#8 }) (world.setList .h0 [])
    (fun t => ((t.request 1).map Request.state, (t.noticePort .h0).queue))
      = some (some (.done ⟨.notLocked, 0, []⟩), [.completed 0x0101#16 .notLocked 0]) := by decide +kernel
/-- Slot 0 ends ADDRESS NACK, which makes 48h SUSPECT and brings H0's UNDER LOCK slot 1 its NOT LOCKED completion: both
COMPLETED come before TARGET STATE (R36, R87). -/
theorem test_completed_before_target_state :
    let s := (((running .owned).setEngine (.transfer ⟨.request 0, .khz100, 10, 2, none, false⟩)).setSlot 0
      ⟨1#8, some { req with state := .active, attempts := 2 }⟩).setSlot 1
      ⟨1#8, some { req with desc := { write48 with underLock := true } }⟩
    after (.transferCompletion .addressNack) (s.setList .h0 [0, 1]) (fun t => (t.noticePort .h0).queue)
      = some [.completed 0x0001#16 .addressNack 0, .completed 0x0101#16 .notLocked 0, .targetState 0x48#8 .suspect 1] := by
  decide +kernel
/-- After the status byte a header reads FFh; a response reads 00h, its bytes, and FFh beyond them (R153, R179). -/
theorem test_shifted_bytes : after (.statusByteShiftedOut .h0) world (fun t => t.sdo .h0 0) = some (some 0xFF#8)
    ∧ after (.repeatResponse .h0) world (fun t => (List.range 6).map fun k => t.sdo .h0 k)
      = some [some 0x00#8, some 0x01#8, some 0x09#8, some 0xFD#8, some 0xFF#8, some 0xFF#8] := by decide +kernel
/-- A lost transfer is requeued at its place (R44, R124). -/
theorem test_requeue : after (.arbitrationLoss ⟨true, 1, []⟩) (running .owned)
    (fun t => (t.monitor.state, (t.request 0).map fun r => (r.state, r.losses), t.list .h0))
      = some (.foreign, some (.queued, 1), [0]) := by decide +kernel
/-- Three failed attempts in a row fault the bus, and every QUEUED slot completes BUS FAULT (R129, R130). -/
theorem test_faulted : after (.recoveryAttemptEnd ⟨false, true⟩)
    ((world.setEngine (.recovery true)).setMonitor { world.monitor with state := .recovering, failed := 2, idle := none })
    (fun t => (t.monitor.state, t.monitor.busFault, (t.request 0).map Request.state))
      = some (.faulted, true, some (.done ⟨.busFault, 0, []⟩)) := by decide +kernel
/-- A detached port's QUEUED slot, sponsorship and notices are gone (R160). -/
theorem test_detach : after (.detach .h0) world (fun t => (t.tally .h0, t.entryUse 0, (t.port .h0).attached))
    = some (0, none, false) := by decide +kernel

/-! ## The lines of the field bus -/

/-- The bits of an INDEXED READ of two bytes at index 10h of target 48h, written out from R110, Table 6-4 and Table 6-5. -/
theorem test_indexed_read_signals : BusWork.signals ⟨.indexedRead, 0x48#8, [0x10#8], [], 2⟩ (.ran [0xA5#8, 0x5A#8])
    = [.start] ++ [true, false, false, true, false, false, false, false].map .sendBit ++ [.targetAck true]
      ++ [false, false, false, true, false, false, false, false].map .sendBit ++ [.targetAck true, .repeatedStart]
      ++ [true, false, false, true, false, false, false, true].map .sendBit ++ [.targetAck true]
      ++ [true, false, true, false, false, true, false, true].map .readBit ++ [.engineAck true]
      ++ [false, true, false, true, true, false, true, false].map .readBit ++ [.engineAck false, .stop] := by decide +kernel
/-- A repeated START: FDA released in the low phase, FCL released, then FDA falls (Table 6-1). -/
theorem test_repeated_start_levels : Condition.levels ⟨true, false⟩ .repeatedStart
    = [⟨false, false⟩, ⟨false, true⟩, ⟨true, true⟩, ⟨true, false⟩] := by decide +kernel
/-- H0's WRITE on the engine: its START stands first while the monitor is OWNED, and in FOREIGN the engine makes nothing (R116). -/
theorem test_signals_of_the_engine : ((running .owned).signals (.ran [])).length = 1 + 3 * 9 + 1
    ∧ ((running .owned).signals (.ran [])).head? = some .start ∧ (running .foreign).signals (.ran []) = [] := by decide +kernel
/-- The WRITE cut short in its second data byte had one acknowledged (R125). -/
theorem test_cut_short : BusWork.progress ⟨.write, 0x48#8, [], [0xA5#8, 0x5A#8], 0⟩
    (((running .owned).signals (.ran [])).take (1 + 9 + 9 + 3)) = ⟨true, 1, []⟩ := by decide +kernel
/-- The retry of Table 6-8 at 8062: FCL released, FDA low, FDA rises after three pulses, STOP, both high. -/
theorem test_recovery_signals :
    let s := world.setEngine (.recovery true)
    let retry : Attempt := .ended 3 ⟨true, true⟩
    retry.possible ⟨true, false⟩ = true
      ∧ s.recoverySignals retry = [.readBit false, .readBit false, .readBit false, .stop] := by decide +kernel
/-- The attempts of Table 6-8 at 7012 to 7062, with FCL low, fail at once and make no STOP; one whose FDA is still held after
nine pulses leaves it low (R128). -/
theorem test_failed_attempts : (Attempt.clockHeld 0 true).signals = []
    ∧ (Attempt.clockHeld 0 true).levels ⟨true, true⟩ = [⟨false, true⟩]
    ∧ (Attempt.ended 9 ⟨true, false⟩).possible ⟨true, false⟩ = true
    ∧ (Attempt.ended 10 ⟨true, false⟩).possible ⟨true, false⟩ = false
    ∧ ((Attempt.ended 9 ⟨true, false⟩).levels ⟨true, false⟩).all (fun l => !l.fda) = true := by decide +kernel

/-! ## Witnesses

For each statement with hypotheses, a state and operands that meet them all together; one for each of its clauses, at the ends
of their ranges. -/

/-- An answer that leaves something is a next state. -/
theorem answered {α : Type} {c : Instr} {s : State} {f : State → α} {v : α} (h : after c s f = some v) :
    ∃ t, exec c s = .next t := by
  unfold after at h
  split at h
  · exact ⟨_, ‹_›⟩
  · cases h

/-- The records there are, from a check of each place against a list of them. -/
theorem among {α β : Type} [DecidableEq α] [DecidableEq β] {f : α → Option β} (l : List (α × β))
    (h : ∀ a, (f a).all (fun b => decide ((a, b) ∈ l)) = true) {a : α} {b : β} (hb : f a = some b) : (a, b) ∈ l := by
  simpa [hb] using h a

def done : Request := { req with state := .done ⟨.ok, 2, []⟩, owner := .h1 }
def use4A : MirrorUse := { use48 with key := ⟨0x4A#8, [], 1⟩, state := .failed, pending := none }
def news : Notice := .completed 0x4001#16 .ok 2

/-- A device with something in every block: a lock with a waiter, a target in each health state, a FAILED and a PRIMING entry, a
QUEUED and a DONE slot, and a notice. -/
def rich : State :=
  ((((locked.setTarget 1 (some x49)).setTarget 2 (some x4A)).setEntry 1 ⟨1#8, some use4A⟩).setSlot 1 ⟨1#8, some done⟩).setNoticePort
    .h1 ⟨[news], 0x7F#8⟩

/-! ### The laws, and the step that leaves from them -/

theorem rich_noticeLaw : rich.noticeLaw := by
  intro p
  refine ⟨⟨(rich.noticePort p).queue, [], by simp, ?_, ?_, .inl rfl, ?_⟩, ?_⟩ <;> cases p <;> first
    | decide +kernel
    | exact List.Pairwise.nil
    | exact List.pairwise_singleton _ _

def x48L : Target := { x48 with lock := some ⟨.h0, ⟨0, 100⟩⟩, waiters := [⟨.h1, 2000⟩] }

theorem rich_targets {t : TargetId} {x : Target} (h : rich.target t = some x) :
    t = 0 ∧ x = x48L ∨ t = 1 ∧ x = x49 ∨ t = 2 ∧ x = x4A := by
  simpa using among [(0, x48L), (1, x49), (2, x4A)] (by decide +kernel) h

theorem rich_entries {e : EntryId} {u : MirrorUse} (h : rich.entryUse e = some u) :
    e = 0 ∧ u = use48 ∨ e = 1 ∧ u = use4A := by
  simpa using among [(0, use48), (1, use4A)] (by decide +kernel) h

theorem rich_requests {n : SlotId} {r : Request} (h : rich.request n = some r) : n = 0 ∧ r = req ∨ n = 1 ∧ r = done := by
  simpa using among [(0, req), (1, done)] (by decide +kernel) h

theorem rich_lockLaw : rich.lockLaw := by
  intro t x h
  rcases rich_targets h with ⟨-, rfl⟩ | ⟨-, rfl⟩ | ⟨-, rfl⟩ <;>
    exact ⟨by decide, fun h e => by cases e <;> decide, by decide⟩

theorem rich_busLaw : rich.busLaw := by
  refine ⟨?_, ?_⟩
  · show rich.engine = .idle; decide +kernel
  · decide +kernel

theorem rich_poolLaw : rich.poolLaw := by
  refine ⟨fun p => ?_, fun p n => ⟨fun h => ?_, ?_⟩, fun n r h => ?_, fun n => ⟨?_, ?_⟩⟩
  · cases p <;> decide +kernel
  · have hp : p = .h0 ∧ n = 0 := by revert n; cases p <;> decide +kernel
    obtain ⟨rfl, rfl⟩ := hp
    exact ⟨req, by decide +kernel⟩
  · rintro ⟨r, h, rfl, hl⟩
    rcases rich_requests h with ⟨rfl, rfl⟩ | ⟨rfl, rfl⟩ <;> revert hl <;> decide +kernel
  · rcases rich_requests h with ⟨-, rfl⟩ | ⟨-, rfl⟩ <;> decide
  · rintro ⟨r, h, ha⟩
    rcases rich_requests h with ⟨-, rfl⟩ | ⟨-, rfl⟩ <;> exact absurd ha (by decide)
  · rintro ⟨t, h, -⟩
    rw [show rich.engine = .idle by decide +kernel] at h
    cases h

theorem rich_healthLaw : rich.healthLaw := by
  intro t x h
  rcases rich_targets h with ⟨-, rfl⟩ | ⟨-, rfl⟩ | ⟨-, rfl⟩ <;> unfold Target.healthLaw <;> decide

theorem rich_mirrorLaw : rich.mirrorLaw := by
  intro e u h
  rcases rich_entries h with ⟨-, rfl⟩ | ⟨-, rfl⟩ <;> exact ⟨⟨.h0, by decide⟩, by decide⟩

theorem rich_tableLaw : rich.tableLaw := by
  refine ⟨fun t t' x x' h h' ha => ?_, fun e e' u u' h h' hk => ?_, fun e u h => ?_⟩
  · rcases rich_targets h with ⟨rfl, rfl⟩ | ⟨rfl, rfl⟩ | ⟨rfl, rfl⟩ <;>
      rcases rich_targets h' with ⟨rfl, rfl⟩ | ⟨rfl, rfl⟩ | ⟨rfl, rfl⟩ <;> revert ha <;> decide
  · rcases rich_entries h with ⟨rfl, rfl⟩ | ⟨rfl, rfl⟩ <;>
      rcases rich_entries h' with ⟨rfl, rfl⟩ | ⟨rfl, rfl⟩ <;> revert hk <;> decide
  · rcases rich_entries h with ⟨rfl, rfl⟩ | ⟨rfl, rfl⟩
    · exact ⟨x48L, by decide +kernel⟩
    · exact ⟨x4A, by decide +kernel⟩

theorem rich_sessionLaw : rich.sessionLaw := by
  intro p hp
  have h : p = .h2 ∨ p = .h3 := by revert hp; cases p <;> decide +kernel
  refine ⟨fun n r hr ho => ?_, fun t x hx => ?_, fun e u hu => ?_, ?_⟩
  · rcases rich_requests hr with ⟨-, rfl⟩ | ⟨-, rfl⟩ <;> subst ho <;> revert h <;> decide
  · rcases rich_targets hx with ⟨-, rfl⟩ | ⟨-, rfl⟩ | ⟨-, rfl⟩ <;> rcases h with rfl | rfl <;>
      exact ⟨fun h e => by cases e <;> decide, by decide⟩
  · rcases rich_entries hu with ⟨-, rfl⟩ | ⟨-, rfl⟩ <;> rcases h with rfl | rfl <;> decide
  · rcases h with rfl | rfl <;> decide +kernel

theorem rich_quotaLaw : rich.quotaLaw := by unfold State.quotaLaw; decide +kernel

theorem rich_sizeLaw : rich.sizeLaw := by
  refine ⟨fun n r h => ?_, fun e u h => ?_, fun t e i k m h => ?_⟩
  · rcases rich_requests h with ⟨-, rfl⟩ | ⟨-, rfl⟩ <;>
      exact ⟨by decide, by decide, fun res h => by cases h <;> decide⟩
  · rcases rich_entries h with ⟨-, rfl⟩ | ⟨-, rfl⟩ <;> exact ⟨by decide, fun v h => by cases h⟩
  · rw [show rich.engine = .idle by decide +kernel] at h
    cases h

/-- The five statements that every step keeps the laws, from a device with something in every block. -/
theorem witness_StepsKeepTheLaws : (rich.noticeLaw ∧ rich.lockLaw ∧ rich.sessionLaw ∧ rich.busLaw ∧ rich.poolLaw ∧ rich.quotaLaw
    ∧ rich.sizeLaw ∧ rich.healthLaw ∧ rich.mirrorLaw ∧ rich.tableLaw) ∧ ∃ t, step rich = .next t :=
  ⟨⟨rich_noticeLaw, rich_lockLaw, rich_sessionLaw, rich_busLaw, rich_poolLaw, rich_quotaLaw, rich_sizeLaw, rich_healthLaw,
    rich_mirrorLaw, rich_tableLaw⟩, _, rfl⟩

/-- NoIdlingWhileWorkWaits: the event that takes the monitor to FREE, with work that waits for it. -/
theorem witness_NoIdlingWhileWorkWaits : (∀ p n, n ∈ rich.list p → rich.notLockedDue p n = false)
    ∧ (rich.engine = .idle → rich.monitor.state = .free → ∀ x, rich.candidate x = none)
    ∧ ∃ t, exec .foreignStop rich = .next t := by
  refine ⟨fun p => ?_, fun _ h => absurd h (by decide +kernel), answered (f := fun t => t.monitor.state) (v := .free) (by decide +kernel)⟩
  cases p <;> decide +kernel

/-! ### The step, the header and the frame -/

theorem witness_StepTakesTheCommandInFront : State.reset.pending = [] := rfl

theorem witness_EveryCommandIsAnswered : Instr.wellFormed (.submit .h0 submitExample) = true
    ∧ Instr.wellFormed (.unknownCommand .h0 0x01#8) = false := by decide +kernel

theorem witness_HeadersReadAsTheirCommand : Instr.wellFormed (.submit .h0 submitExample) = true
    ∧ headerPort (.submit .h0 submitExample) = some .h0
    ∧ ∃ bytes, encodeHeader (.submit .h0 submitExample) = some bytes ∧ 8 < bytes.length :=
  ⟨by decide +kernel, rfl, _, rfl, by decide⟩

theorem witness_HeadersThatExecuteNothing :
    (bodyLength [0x01#8, 0xF5#8] = some 1 ∧ [0x01#8, 0xF5#8][1]? = some 0xF5#8 ∧ 0xF5#8 ≠ crc8 ([0x01#8, 0xF5#8].take 1))
      ∧ world.takesHeader .h0 = true ∧ commandCodes.contains 0x00#8 = false ∧ commandCodes.contains 0xFF#8 = false
      ∧ commandCodes.contains 0x07#8 = false := by decide +kernel

theorem witness_FrameOpensWithTheStatusByte :
    world.inReset = false ∧ (world.port .h3).frame = .idle ∧ (world.port .h3).selected = false := by decide

/-- The small device with H0's frame in RESPONSE, with and without a RESET PART pending. -/
def answering (reset : Bool) : State :=
  world.updPort .h0 fun h => { h with frame := .response, statusOut := none, resetPending := reset }

theorem witness_FrameEventsBearOnTheirPort : world.inReset = false
    ∧ ((world.port .h0).frame = .header ∧ (world.port .h0).statusOut.isSome = true)
    ∧ ((answering false).inReset = false ∧ ((answering false).port .h0).frame = .response
      ∧ ((answering false).port .h0).resetPending = false)
    ∧ (world.port .h3).frame = .idle := by decide

theorem witness_ResponseIsFormedAndStored : world.takesHeader .h0 = true
    ∧ (Instr.wellFormed (.info .h0) = true ∧ headerPort (.info .h0) = some .h0)
    ∧ (Instr.wellFormed (.repeatResponse .h0) = true ∧ headerPort (.repeatResponse .h0) = some .h0)
    ∧ Instr.wellFormed (.checkError .h0) = true ∧ headerPort (.checkError .h0) = some .h0 := by decide

theorem witness_ResponseCountsItsBytes : rich.sizeLaw ∧ headerPort (.fetch .h1 0x4101#16 0#8) = some .h1
    ∧ rich.takesHeader .h1 = true ∧ Instr.fetch .h1 0x4101#16 0#8 ≠ .repeatResponse .h1
    ∧ ∃ t, exec (.fetch .h1 0x4101#16 0#8) rich = .next t :=
  ⟨rich_sizeLaw, rfl, by decide +kernel, by decide,
    answered (f := fun t => (t.port .h1).frame) (v := .response) (by decide +kernel)⟩

theorem witness_WhatTheDeviceIgnores : State.inReset { world with hold := ⟨true, false, true⟩ } = true
    ∧ State.inReset { world with hold := ⟨false, true, true⟩ } = true ∧ Instr.wellFormed .start = true
    ∧ headerPort (.info .h3) = some .h3 ∧ (world.port .h3).frame ≠ .header
    ∧ ((answering false).port .h0).frame ≠ .header := by decide

/-! ### The common checks -/

theorem witness_StandingIsCheckedInOrder :
    (headerPort (.busReset .h1) = some .h1 ∧ world.takesHeader .h1 = true ∧ supervisorOnly (.busReset .h1) = true
      ∧ world.supervisor ≠ .h1)
    ∧ (headerPort (.readNotice .h2) = some .h2 ∧ world.takesHeader .h2 = true ∧ needsSession (.readNotice .h2) = true
      ∧ supervisorOnly (.readNotice .h2) = false ∧ (world.port .h2).attached = false)
    ∧ needsSession (.busReset .h2) = true ∧ State.supervisor { world with supervisor := .h2 } = .h2 := by decide

def declare : DeclareArgs := ⟨0x50#8, 0x02#8, 0x00#8, 0x0F#8, 10#16, 0x0F#8, 0x01#8⟩

/-- The ends of the ranges, within and without. -/
theorem witness_ArgumentsOutsideTheirRanges :
    (headerPort (.renew .h0 0x07#8) = some .h0 ∧ rich.takesHeader .h0 = true ∧ (rich.port .h0).attached = true
      ∧ rich.supervisor = .h0)
    ∧ ([0x07#8, 0x78#8].map fun a => badArguments rich (.renew .h0 a)) = [true, true]
    ∧ ([0x08#8, 0x77#8].map fun a => badArguments rich (.renew .h0 a)) = [false, false]
    ∧ ([0x7F#8, 0x80#8].map fun m => badArguments rich (.setNoticeMask .h0 m)) = [false, true]
    ∧ ([0#16, 1#16].map fun l => badArguments rich (.lock .h0 0x48#8 l 0#8)) = [true, false]
    ∧ ([4#16, 5#16, 60000#16, 60001#16].map fun t => badArguments rich (.mirrorDefine .h0 keyArgs48 t 0#8 0#16))
      = [true, false, false, true]
    ∧ ([0#8, 1#8, 16#8, 17#8].map fun n => badArguments rich (.mirrorFind .h0 { keyArgs48 with len := n }))
      = [true, false, false, true]
    ∧ ([3#8, 4#8].map fun n => badArguments rich (.mirrorFind .h0 { keyArgs48 with indexLen := n })) = [false, true]
    ∧ ([23#8, 24#8].map fun e => badArguments rich (.mirrorDrop .h0 e)) = [false, true]
    ∧ ([0#16, 9#16, 10#16, 10000#16, 10001#16].map fun i => badArguments rich
      (.declareTarget .h0 { declare with probeInterval := i })) = [false, true, false, false, true]
    ∧ ([0#8, 1#8, 10#8, 11#8].map fun i => badArguments rich (.getParameter .h0 i)) = [true, false, false, true]
    ∧ ([0#8, 1#8, 3#8, 4#8].map fun n => badArguments rich (.evictPort .h0 n)) = [true, false, false, true]
    ∧ ([9#16, 10#16, 10000#16, 10001#16].map fun v => badArguments rich (.setParameter .h0 9#8 v))
      = [true, false, false, true]
    ∧ badArguments rich (.submit .h0 submitExample) = false
    ∧ badArguments rich (.submit .h0 { submitExample with readLen := 1#8 }) = true := by decide +kernel

theorem witness_InfoAndStatusReport : world.takesHeader .h0 = true ∧ world.cause = .powerOn
    ∧ State.takesHeader { world with cause := .resetPin } .h2 = true
    ∧ State.takesHeader { world with cause := .resetCommand .h1 } .h0 = true
    ∧ (0#8 ++ 1#8 ++ 2#8 ++ 3#8 : BitVec 32) = BitVec.ofNat 32 (State.now { world with now := 0x10203 }) := by decide

theorem witness_RepeatResponseReturnsTheBuffer : world.takesHeader .h0 = true ∧ (world.port .h0).buffer = none
    ∧ State.takesHeader (world.updPort .h2 fun h => { h with buffer := some [0x01#8, 0x01#8, 0x00#8] }) .h2 = true
    ∧ ((world.updPort .h2 fun h => { h with buffer := some [0x01#8, 0x01#8, 0x00#8] }).port .h2).buffer
      = some [0x01#8, 0x01#8, 0x00#8] := by decide

theorem witness_GetParameterReadsTheStore : world.takesHeader .h2 = true ∧ (0#8).toNat = 0 ∧ 10 < (11#8).toNat
    ∧ BitVec.ofNat 16 world.params.busRate.khz = 100#16 ∧ world.params.admitted.setWidth 16 = 0x000F#16 := by decide

/-! ### Sessions -/

theorem witness_AttachOpensASession : world.takesHeader .h2 = true ∧ (world.port .h2).attached = false
    ∧ world.params.admitted.getLsbD Port.h2.index.val = true ∧ (world.port .h2).generation ≠ 0xFF#8
    ∧ ((world.updPort .h2 fun h => { h with generation := 0xFF#8 }).port .h2).generation = 0xFF#8
    ∧ State.takesHeader { world with params := { world.params with admitted := 0xB#4 } } .h2 = true
    ∧ (0xB#4).getLsbD Port.h2.index.val = false := by decide

theorem witness_SessionEndGivesUpEveryHolding : rich.lockLaw ∧ rich.takesHeader .h0 = true ∧ (rich.port .h0).attached = true
    ∧ rich.params.admitted.getLsbD Port.h0.index.val = true ∧ (rich.port .h0).generation ≠ 0xFF#8
    ∧ rich.supervisor = .h0 ∧ Port.h1 ≠ .h0 ∧ (rich.port .h1).attached = true :=
  ⟨rich_lockLaw, by decide +kernel⟩

theorem witness_SessionEndSeesToEverySlot :
    (rich.takesHeader .h0 = true ∧ (rich.port .h0).attached = true ∧ rich.request 0 = some req ∧ req.owner = .h0
      ∧ req.state ≠ .active)
    ∧ (rich.request 1 = some done ∧ done.owner ≠ .h0 ∧ done.state ≠ .queued)
    ∧ ((running .owned).takesHeader .h0 = true ∧ (running .owned).request 0 = some { req with state := .active })
    ∧ rich.params.admitted.getLsbD Port.h0.index.val = true
    ∧ (Port.h1 ≠ .h0 ∧ (rich.port .h1).attached = true ∧ done.owner = .h1 ∧ done.state ≠ .active)
    ∧ rich.takesHeader .h2 = true ∧ (rich.port .h2).attached = false ∧ rich.supervisor = .h0 := by decide +kernel

/-! ### The slot pool -/

/-- The device with the pool's first places taken by H0. -/
def filled (k : Nat) : State :=
  { rich with slots := Vector.ofFn fun i => ⟨1#8, if i.val < k then some { req with state := .done ⟨.ok, 2, []⟩ } else none⟩ }

theorem witness_PoolAddsUp : rich.quotaLaw ∧ rich.tally .h0 < 8
    ∧ ((filled 23).sharedInUse ≤ Config.sharedSlots ∧ 8 ≤ (filled 23).tally .h0 ∧ (filled 23).sharedInUse < 16) :=
  ⟨rich_quotaLaw, by decide +kernel, by decide +kernel⟩

theorem witness_SubmitIsRefusedInOrder :
    (rich.takesHeader .h0 = true ∧ (rich.port .h0).attached = true ∧ Instr.wellFormed (.submit .h0 submitExample) = true
      ∧ badDescriptor submitExample = false ∧ submitExample.control &&& 0x03#8 = 0#8)
    ∧ (State.monitor (inState .faulted)).state = .faulted ∧ (inState .faulted).takesHeader .h0 = true
    ∧ rich.monitor.state ≠ .faulted ∧ rich.targetAt 0x4C#8 = none
    ∧ (rich.setTarget 1 (some { x49 with writeSet := 0xE#4 })).targetAt 0x49#8 = some { x49 with writeSet := 0xE#4 }
    ∧ (rich.targetAt 0x4A#8 = some x4A ∧ x4A.health = .quarantined)
    ∧ ((filled 24).targetAt 0x49#8 = some x49 ∧ x49.health ≠ .quarantined ∧ 8 ≤ (filled 24).tally .h0
      ∧ 16 ≤ (filled 24).sharedInUse) := by decide +kernel

theorem witness_SubmitIsAccepted :
    let a : SubmitArgs := { submitExample with addr := 0x49#8 }
    let d : Descriptor := ⟨.write, 0x49#8, [0x10#8], [0xA5#8, 0x5A#8], 0, .normal, true, false, false, false⟩
    rich.takesHeader .h0 = true ∧ (rich.port .h0).attached = true ∧ Instr.wellFormed (.submit .h0 a) = true
      ∧ badDescriptor a = false ∧ a.control &&& 0x03#8 = 0#8 ∧ a.control &&& 0x0C#8 = 0x04#8 ∧ d.target = a.addr
      ∧ a.tail = d.index ++ d.data ∧ d.index.length = a.indexLength ∧ d.readLen = (a.readLen &&& 0x3F#8).toNat
      ∧ d.notify = a.control.getLsbD 4 ∧ d.autoRelease = a.control.getLsbD 5 ∧ d.underLock = a.control.getLsbD 6
      ∧ d.fence = a.control.getLsbD 7 ∧ rich.monitor.state ≠ .faulted ∧ rich.targetAt a.addr = some x49
      ∧ x49.writeSet.getLsbD Port.h0.index.val = true ∧ x49.health ≠ .quarantined ∧ rich.tally .h0 < 8
      ∧ rich.request 2 = none ∧ ∀ m, m < 2 → rich.request m ≠ none := by decide +kernel

theorem witness_TicketTest : rich.takesHeader .h0 = true ∧ (rich.port .h0).attached = true
    ∧ rich.ticketSlot .h0 0x4101#16 = none ∧ rich.ticketSlot .h0 0x0002#16 = none := by decide +kernel

theorem witness_CancelBySlotState :
    (rich.takesHeader .h0 = true ∧ (rich.port .h0).attached = true ∧ rich.ticketSlot .h0 0x0001#16 = some (0, req)
      ∧ req.state = .queued)
    ∧ ((running .owned).takesHeader .h0 = true ∧ ((running .owned).port .h0).attached = true
      ∧ (running .owned).ticketSlot .h0 0x0001#16 = some (0, { req with state := .active }))
    ∧ rich.takesHeader .h1 = true ∧ (rich.port .h1).attached = true ∧ rich.ticketSlot .h1 0x4101#16 = some (1, done)
    ∧ done.state = .done ⟨.ok, 2, []⟩ := by decide +kernel

/-- FETCH meets the same three slots; the keep flag is bit 0. -/
theorem witness_FetchBySlotState : (rich.ticketSlot .h0 0x0001#16 = some (0, req) ∧ rich.takesHeader .h0 = true)
    ∧ ((running .owned).ticketSlot .h0 0x0001#16 = some (0, { req with state := .active }))
    ∧ (rich.ticketSlot .h1 0x4101#16 = some (1, done) ∧ rich.takesHeader .h1 = true ∧ (rich.port .h1).attached = true)
    ∧ (0x01#8).getLsbD 0 = true ∧ (0xFE#8).getLsbD 0 = false := by decide +kernel

/-! ### The notice block -/

def queued (q : List Notice) (mask : Byte) : State := rich.setNoticePort .h1 ⟨q, mask⟩

theorem witness_OfferActsByTheFirstStep :
    let n : Notice := .busState .restored
    (n.isOverflow = false ∧ n.kindCode = 7#8)
    ∧ ((rich.port .h2).attached = false ∧ ((queued [] 0x3F#8).noticePort .h1).mask.getLsbD 6 = false)
    ∧ ((queued [] 0x7F#8).port .h1).attached = true ∧ (0x7F#8).getLsbD 6 = true
    ∧ (∃ a ∈ [news, .busState .faulted], a.coalesces n = true)
    ∧ (∀ a ∈ List.replicate 15 news, a.coalesces n = false ∧ a.isOverflow = false)
    ∧ 15 ≤ (List.replicate 15 news).length ∧ (List.replicate 14 news).length < 15
    ∧ [news, .overflow 255] = [news] ++ [.overflow 255] ∧ (∀ a ∈ [news], a.isOverflow = false) := by decide

theorem witness_ReadNoticeRemovesTheHead : (rich.takesHeader .h2 = true ∧ (rich.port .h2).attached = false)
    ∧ (rich.takesHeader .h0 = true ∧ (rich.port .h0).attached = true ∧ (rich.noticePort .h0).queue = [])
    ∧ (rich.takesHeader .h1 = true ∧ (rich.port .h1).attached = true ∧ (rich.noticePort .h1).queue = [news])
    ∧ queueLaw (rich.noticePort .h1).queue ∧ (0x7F#8).getLsbD 7 = false :=
  ⟨by decide +kernel, by decide +kernel, by decide +kernel, (rich_noticeLaw .h1).1, by decide⟩

/-! ### Locks -/

/-- The device with target 48h held by H0 and nobody waiting. -/
def held : State := rich.setTarget 0 (some { x48L with waiters := [] })

theorem witness_LockByItsConditionsInOrder :
    (rich.takesHeader .h1 = true ∧ (rich.port .h1).attached = true ∧ noAddress 0x08#8 = false ∧ noAddress 0x77#8 = false
      ∧ (1#16 : Half) ≠ 0#16 ∧ rich.targetAt 0x77#8 = none)
    ∧ (rich.setTarget 1 (some { x49 with readSet := 0xD#4, writeSet := 0xD#4 })).lookup 0x49#8
        = some (1, { x49 with readSet := 0xD#4, writeSet := 0xD#4 })
    ∧ (rich.takesHeader .h0 = true ∧ rich.lookup 0x48#8 = some (0, x48L) ∧ x48L.lock = some ⟨.h0, ⟨0, 100⟩⟩)
    ∧ x48L.awaits .h1 = true
    ∧ (rich.lookup 0x49#8 = some (1, x49) ∧ x49.awaits .h1 = false ∧ x49.lock = none)
    ∧ held.lookup 0x48#8 = some (0, { x48L with waiters := [] }) ∧ held.takesHeader .h1 = true
    ∧ ({ x48L with waiters := [] } : Target).awaits .h1 = false := by decide +kernel

theorem witness_RenewAndUnlockByStanding :
    (rich.takesHeader .h0 = true ∧ (rich.port .h0).attached = true ∧ rich.targetAt 0x08#8 = none ∧ noAddress 0x08#8 = false)
    ∧ (rich.lookup 0x48#8 = some (0, x48L) ∧ x48L.lock = some ⟨.h0, ⟨0, 100⟩⟩)
    ∧ (rich.takesHeader .h1 = true ∧ (rich.port .h1).attached = true ∧ x48L.awaits .h1 = true)
    ∧ (∀ h, x48L.lock = some h → h.port ≠ .h1)
    ∧ rich.lookup 0x49#8 = some (1, x49) ∧ x49.lock = none ∧ x49.awaits .h0 = false ∧ rich.supervisor = .h0 :=
  ⟨by decide +kernel, by decide +kernel, by decide +kernel, fun _ h => by cases h; decide, by decide +kernel⟩

theorem witness_ReleasePassesTheLock : (rich.lookup 0x48#8 = some (0, x48L) ∧ x48L.lock = some ⟨.h0, ⟨0, 100⟩⟩)
    ∧ (rich.takesHeader .h0 = true ∧ (rich.port .h0).attached = true ∧ noAddress 0x48#8 = false ∧ rich.supervisor = .h0)
    ∧ (State.lookup { rich with now := 100 } 0x48#8 = some (0, x48L) ∧ State.inReset { rich with now := 100 } = false
      ∧ 0 + 100 ≤ State.now { rich with now := 100 })
    ∧ x48L.waiters = [⟨.h1, 2000⟩] ∧ held.lookup 0x48#8 = some (0, { x48L with waiters := [] }) := by decide +kernel

/-! ### The mirror table -/

def key49 : KeyArgs := ⟨0x49#8, 3#8, 1#8, 2#8, 3#8, 16#8⟩

/-- A device whose first mirror entry is as given, with every law apart. -/
def entry (u : MirrorUse) : State := rich.setEntry 0 ⟨1#8, some u⟩

/-- An entry in VALID, read 400 ms ago by its one sponsor H0's period of 100 ms. -/
def valid48 : MirrorUse :=
  { use48 with
    state := .valid, pending := none, lastStart := some 0, nextDue := some 100, dueTimer := some ⟨0, 100⟩, lastOutcome := some .ok
    value := some ⟨[1#8, 2#8], 0⟩, staleTimer := some ⟨0, 400⟩ }

theorem witness_MirrorDefineTakesAnEntry :
    let define := fun ka => Instr.mirrorDefine .h1 ka 5#16 1#8 0xFFFF#16
    (rich.takesHeader .h1 = true ∧ (rich.port .h1).attached = true ∧ badArguments rich (define key49) = false)
    ∧ (badArguments rich (define { key49 with addr := 0x77#8 }) = false ∧ rich.targetAt 0x77#8 = none)
    ∧ (rich.targetAt 0x49#8 = some x49 ∧ x49.readSet.getLsbD Port.h1.index.val = true)
    ∧ (rich.setTarget 1 (some { x49 with readSet := 0xD#4 })).targetAt 0x49#8 = some { x49 with readSet := 0xD#4 }
    ∧ (∀ e u, rich.entryUse e = some u → u.key ≠ ⟨0x49#8, [1#8, 2#8, 3#8], 16⟩)
    ∧ (rich.entryUse 2 = none ∧ ∀ d, d < 2 → rich.entryUse d ≠ none)
    ∧ (∀ e, State.entryUse { rich with entries := Vector.replicate 24 ⟨1#8, some use4A⟩ } e = some use4A)
    ∧ rich.targetAt 0x4A#8 = some x4A ∧ x4A.health = .quarantined := by
  refine ⟨by decide +kernel, by decide +kernel, by decide +kernel, by decide +kernel, fun e u h => ?_, by decide +kernel,
    by decide +kernel, by decide +kernel⟩
  rcases rich_entries h with ⟨-, rfl⟩ | ⟨-, rfl⟩ <;> decide

theorem witness_SponsorsJoinAndLeave :
    (rich.takesHeader .h1 = true ∧ (rich.port .h1).attached = true
      ∧ badArguments rich (.mirrorDefine .h1 keyArgs48 60000#16 0#8 0#16) = false ∧ rich.targetAt 0x48#8 = some x48L
      ∧ x48L.readSet.getLsbD Port.h1.index.val = true ∧ rich.entryUse 0 = some use48
      ∧ use48.key = ⟨keyArgs48.addr, [keyArgs48.index1, keyArgs48.index2, keyArgs48.index3].take keyArgs48.indexLen.toNat,
        keyArgs48.len.toNat⟩)
    ∧ ((23#8).toNat = (23 : EntryId).val ∧ rich.entryUse 23 = none)
    ∧ ((0#8).toNat = (0 : EntryId).val ∧ use48.sponsors.get .h1 = none)
    ∧ (rich.takesHeader .h0 = true ∧ (rich.port .h0).attached = true ∧ use48.sponsors.get .h0 ≠ none)
    ∧ (∀ q, q ≠ .h0 → use48.sponsors.get q = none)
    ∧ (let s := entry { use48 with sponsors := use48.sponsors.set .h1 (some sponsor) };
      s.takesHeader .h0 = true ∧ s.supervisor = .h0 ∧ (s.port .h0).attached = true ∧ (s.port .h1).attached = true
        ∧ s.params.admitted.getLsbD Port.h0.index.val = true
        ∧ s.entryUse 0 = some { use48 with sponsors := use48.sponsors.set .h1 (some sponsor) }
        ∧ (use48.sponsors.set .h1 (some sponsor)).get .h0 ≠ none)
    ∧ ∃ q, q ≠ Port.h0 ∧ (use48.sponsors.set .h1 (some sponsor)).get q ≠ none :=
  ⟨by decide +kernel, by decide +kernel, by decide +kernel, by decide +kernel, fun q h => by cases q <;> first | rfl | exact absurd rfl h,
    by decide +kernel, .h1, by decide⟩

theorem witness_DueTimeFollowsThePeriod : (∃ p, use48.sponsors.get p ≠ none)
    ∧ (rich.entryUse 0 = some use48 ∧ use48.pending ≠ none) ∧ (rich.entryUse 1 = some use4A ∧ use4A.state = .failed)
    ∧ ((entry valid48).entryUse 0 = some valid48 ∧ valid48.state ≠ .failed ∧ valid48.pending = none
      ∧ valid48.lastStart = some 0 ∧ valid48.period = 100)
    ∧ State.now { entry valid48 with now := 99 } < 0 + valid48.period
    ∧ (0 + valid48.period ≤ State.now { entry valid48 with now := 100 }
      ∧ State.pollRunning { entry valid48 with now := 100 } 0 = false)
    ∧ State.pollRunning
      { entry valid48 with engine := .transfer ⟨.poll 0 1#8 key48 ⟨.normal, 0, 0, 0, false⟩, .khz100, 10, 0, none, false⟩ } 0 = true :=
  ⟨⟨.h0, by decide⟩, by decide +kernel⟩

theorem witness_QueriesReadTheTables :
    (rich.takesHeader .h1 = true ∧ (rich.port .h1).attached = true ∧ badKey key49 = false ∧ badKey keyArgs48 = false
      ∧ noAddress 0x08#8 = false ∧ noAddress 0x77#8 = false ∧ rich.targetAt 0x77#8 = none ∧ rich.targetAt 0x49#8 = some x49
      ∧ x49.readSet.getLsbD Port.h1.index.val = true)
    ∧ (∀ e u, rich.entryUse e = some u → u.key ≠ ⟨0x49#8, [1#8, 2#8, 3#8], 16⟩)
    ∧ (rich.targetAt 0x48#8 = some x48L ∧ rich.entryUse 0 = some use48
      ∧ use48.key = ⟨0x48#8, [0x10#8, 0x00#8, 0x00#8].take 1, 2⟩)
    ∧ ((23#8).toNat = (23 : EntryId).val ∧ rich.entryUse 23 = none)
    ∧ ((entry valid48).entryUse 0 = some valid48 ∧ (entry valid48).targetAt valid48.key.addr = some x48L
      ∧ min (70000 - 0) 65535 = 65535)
    ∧ (rich.lookup 0x48#8 = some (0, x48L) ∧ x48L.lock = some ⟨.h0, ⟨0, 100⟩⟩ ∧ ∀ i : Fin 8,
      (0x03#8).getLsbD i.val = (i.val == 0 && x48L.readSet.getLsbD Port.h1.index.val
        || i.val == 1 && x48L.writeSet.getLsbD Port.h1.index.val)) := by
  refine ⟨by decide +kernel, fun e u h => ?_, by decide +kernel, by decide +kernel, by decide +kernel, by decide +kernel⟩
  rcases rich_entries h with ⟨-, rfl⟩ | ⟨-, rfl⟩ <;> decide

theorem witness_MirrorTimersExpire :
    let at100 := { entry valid48 with now := 100 }
    (at100.inReset = false ∧ at100.entryUse 0 = some valid48 ∧ valid48.dueTimer = some ⟨0, 100⟩ ∧ 0 + 100 ≤ at100.now
      ∧ valid48.pending = none ∧ at100.pollRunning 0 = false)
    ∧ State.pollRunning
      { at100 with engine := .transfer ⟨.poll 0 1#8 key48 ⟨.normal, 0, 0, 0, false⟩, .khz100, 10, 0, none, false⟩ } 0 = true
    ∧ { valid48 with pending := some ⟨.normal, 0, 0, 0, false⟩ }.pending ≠ none
    ∧ (valid48.state = .valid ∧ valid48.staleTimer = some ⟨0, 400⟩ ∧ 0 + 400 ≤ State.now { entry valid48 with now := 400 }) := by
  decide +kernel

/-! ### The target table -/

def x50 : Target := ⟨0x50#8, .khz1000, 10, 15, 10, 0xF#4, 0x1#4, .online, 0, none, none, none, none, []⟩

theorem witness_DeclareAndRemoveTarget :
    (rich.takesHeader .h0 = true ∧ rich.supervisor = .h0 ∧ (rich.port .h0).attached = true ∧ badDeclaration declare = false
      ∧ rich.targetAt declare.addr = none)
    ∧ (∀ t, State.target { rich with targets := Vector.replicate 32 (some x48) } t ≠ none)
    ∧ State.targetAt { rich with targets := Vector.replicate 32 (some x48) } declare.addr = none
    ∧ (rich.target 3 = none ∧ (∀ u, u < 3 → rich.target u ≠ none) ∧ x50.addr = declare.addr)
    ∧ x50.declaredAs declare
    ∧ (noAddress 0x77#8 = false ∧ rich.targetAt 0x77#8 = none)
    ∧ (rich.lookup 0x48#8 = some (0, x48L) ∧ x48L.lock ≠ none)
    ∧ (rich.lookup 0x49#8 = some (1, x49) ∧ rich.engine = .idle ∧ x49.lock = none ∧ x49.waiters = []
      ∧ req.desc.target ≠ 0x49#8 ∧ done.desc.target ≠ 0x49#8 ∧ use48.key.addr ≠ 0x49#8 ∧ use4A.key.addr ≠ 0x49#8) :=
  ⟨by decide +kernel, by decide +kernel, by decide +kernel, by decide +kernel, by unfold Target.declaredAs; decide, by decide +kernel,
    by decide +kernel, by decide +kernel⟩

/-- H0 holds target 48h, and a redeclaration takes H0 out of its write set; nobody holds anything on 49h, whose count of 1 stands
below a threshold of 2 and at one of 1. -/
theorem witness_RedeclarationKeepsHealthAndLock :
    let d48 : DeclareArgs := ⟨0x48#8, 0x00#8, 0x0A#8, 0x02#8, 500#16, 0x0F#8, 0x0E#8⟩
    let d49 : Byte → DeclareArgs := fun n => ⟨0x49#8, 0x00#8, 0x0A#8, n, 500#16, 0x0F#8, 0x0F#8⟩
    (rich.takesHeader .h0 = true ∧ rich.supervisor = .h0 ∧ (rich.port .h0).attached = true ∧ badDeclaration d48 = false
      ∧ rich.lookup 0x48#8 = some (0, x48L))
    ∧ ({ x48L with writeSet := 0xE#4 } : Target).declaredAs d48
    ∧ (x48L.writeSet.getLsbD Port.h0.index.val = true ∧ (0xE#4).getLsbD Port.h0.index.val = false
      ∧ x48L.lock = some ⟨.h0, ⟨0, 100⟩⟩)
    ∧ (badDeclaration (d49 1#8) = false ∧ badDeclaration (d49 2#8) = false ∧ rich.lookup 0x49#8 = some (1, x49))
    ∧ ({ x49 with threshold := 1 } : Target).declaredAs (d49 1#8) ∧ x49.declaredAs (d49 2#8)
    ∧ x49.health = .suspect ∧ x49.failures = 1 := by
  refine ⟨by decide +kernel, ?_, by decide +kernel, by decide +kernel, ?_, ?_, rfl, rfl⟩ <;> unfold Target.declaredAs <;> decide

theorem witness_QuarantineOnset : (rich.target 0 = some x48L ∧ rich.entryUse 0 = some use48 ∧ use48.key.addr = x48L.addr)
    ∧ (0 ∈ rich.list .h0 ∧ rich.request 0 = some req ∧ req.state = .queued ∧ req.desc.target = x48L.addr
      ∧ req.desc.kind ≠ .probe ∧ req.orphan = false)
    ∧ rich.target 1 = some x49 ∧ (∀ n r, rich.request n = some r → r.desc.target ≠ x49.addr)
    ∧ ∀ e u, rich.entryUse e = some u → u.key.addr ≠ x49.addr := by
  refine ⟨by decide +kernel, by decide +kernel, by decide +kernel, fun n r h => ?_, fun e u h => ?_⟩
  · rcases rich_requests h with ⟨-, rfl⟩ | ⟨-, rfl⟩ <;> decide
  · rcases rich_entries h with ⟨-, rfl⟩ | ⟨-, rfl⟩ <;> decide

theorem witness_QuarantineEnd :
    (rich.takesHeader .h0 = true ∧ rich.supervisor = .h0 ∧ (rich.port .h0).attached = true ∧ noAddress 0x77#8 = false
      ∧ rich.targetAt 0x77#8 = none)
    ∧ (rich.lookup 0x4A#8 = some (2, x4A) ∧ x4A.health = .quarantined)
    ∧ (rich.lookup 0x49#8 = some (1, x49) ∧ x49.health = .suspect)
    ∧ (rich.lookup 0x48#8 = some (0, x48L) ∧ x48L.health = .online)
    ∧ (rich.target 2 = some x4A ∧ rich.entryUse 1 = some use4A ∧ use4A.key.addr = x4A.addr ∧ use4A.state = .failed
      ∧ use4A.pending = none)
    ∧ ∀ e u, rich.entryUse e = some u → u.key.addr ≠ x49.addr ∨ u.state ≠ .failed := by
  refine ⟨by decide +kernel, by decide +kernel, by decide +kernel, by decide +kernel, by decide +kernel, fun e u h => ?_⟩
  rcases rich_entries h with ⟨-, rfl⟩ | ⟨-, rfl⟩ <;> decide

theorem witness_HealthAccounting : rich.targetAt 0x77#8 = none
    ∧ (rich.lookup 0x48#8 = some (0, x48L) ∧ x48L.health = .online ∧ min (x48L.failures + 1) 255 < x48L.threshold)
    ∧ (rich.lookup 0x49#8 = some (1, x49) ∧ x49.health = .suspect ∧ x49.threshold ≤ min (x49.failures + 1) 255)
    ∧ (rich.lookup 0x4A#8 = some (2, x4A) ∧ x4A.health = .quarantined)
    ∧ ((rich.setTarget 1 (some { x49 with threshold := 3 })).lookup 0x49#8 = some (1, { x49 with threshold := 3 })
      ∧ min (x49.failures + 1) 255 < 3)
    ∧ min ({ x4A with failures := 255 }.failures + 1) 255 = 255 := by decide +kernel

theorem witness_ProbeSchedule :
    let at500 := { rich with now := 500 }
    (at500.inReset = false ∧ at500.target 2 = some x4A ∧ x4A.probeTimer = some ⟨0, 500⟩ ∧ 0 + 500 ≤ at500.now
      ∧ x4A.probe = none)
    ∧ (at500.setTarget 2 (some { x4A with probe := some ⟨.normal, 0, 0, 0, false⟩ })).target 2
      = some { x4A with probe := some ⟨.normal, 0, 0, 0, false⟩ }
    ∧ x4A.health = .quarantined ∧ rich.target 1 = some x49 ∧ x49.health ≠ .quarantined := by decide +kernel

/-! ### The supervisor functions and the resets -/

theorem witness_SetParameterWritesTheStore :
    (rich.takesHeader .h0 = true ∧ rich.supervisor = .h0 ∧ (rich.port .h0).attached = true)
    ∧ (badParameter .h0 1#8 1000#16 = false ∧ Rate.khz1000.khz = (1000#16).toNat)
    ∧ (badParameter .h0 4#8 0#16 = false ∧ { rich.params with agingLimit := (0#16).toNat } ≠ rich.params)
    ∧ (badParameter .h0 5#8 2#16 = false ∧ WorkClass.bulk.code = (2#16).toNat)
    ∧ (badParameter .h0 6#8 15#16 = false ∧ badParameter .h0 7#8 5#16 = false)
    ∧ (badParameter .h0 9#8 1000#16 = false ∧ { rich.params with maxLease := (1000#16).toNat } = rich.params)
    ∧ badParameter .h0 10#8 0xFFF1#16 = false ∧ 0xFFF1#16 &&& 0x000F#16 = 0x0001#16 := by decide +kernel

theorem witness_TimeAndAging : (world.inReset = false ∧ world.request 0 = some req ∧ req.state = .queued)
    ∧ (world.entryUse 0 = some use48 ∧ use48.pending = some ⟨.normal, 0, 0, 0, false⟩)
    ∧ (world.setTarget 2 (some { x4A with probe := some ⟨.bulk, 0, 0, 0, false⟩ })).target 2
      = some { x4A with probe := some ⟨.bulk, 0, 0, 0, false⟩ } := by decide +kernel

theorem witness_StaleAndHangLimitsActAtOnce :
    ((entry valid48).entryUse 0 = some valid48 ∧ valid48.state = .valid ∧ valid48.value = some ⟨[1#8, 2#8], 0⟩
      ∧ 0 + (entry valid48).params.staleMultiple * valid48.period = 400)
    ∧ (State.now { entry valid48 with now := 399 } < 400 ∧ 400 ≤ State.now { entry valid48 with now := 400 })
    ∧ (entry { valid48 with state := .stale }).entryUse 0 = some { valid48 with state := .stale }
    ∧ (rich.inReset = false ∧ rich.monitor.hang = none)
    ∧ ∀ m ∈ [MonitorState.foreign, .recovering],
      let s := rich.setMonitor { rich.monitor with state := m, hang := some ⟨0, 100⟩ }
      s.monitor.hang = some ⟨0, 100⟩ ∧ s.monitor.state = m ∧ s.now < 0 + s.params.hangLimit
        ∧ 0 + s.params.hangLimit ≤ State.now { s with now := 25 } := by decide +kernel

theorem witness_ResetsLeaveTheResetValues :
    (State.hold { world with hold := ⟨true, false, true⟩ } = ⟨true, false, true⟩)
    ∧ (State.hold { world with hold := ⟨true, true, true⟩ } = ⟨true, true, true⟩)
    ∧ (State.hold { world with hold := ⟨false, true, false⟩ } = ⟨false, true, false⟩)
    ∧ (world.takesHeader .h0 = true ∧ world.supervisor = .h0 ∧ (world.port .h0).attached = true)
    ∧ (answering true).inReset = false ∧ ((answering true).port .h0).frame = .response
    ∧ ((answering true).port .h0).resetPending = true := by decide

/-! ### Completion -/

theorem witness_CompletionOfASlot : (rich.request 0 = some req ∧ req.orphan = false
      ∧ (0x0001#16).toNat = req.owner.index.val * 16384 + (0 : SlotId).val * 256 + (rich.slot 0).issue.toNat)
    ∧ (rich.setSlot 0 ⟨1#8, some { req with state := .active, orphan := true }⟩).request 0
      = some { req with state := .active, orphan := true } := by decide +kernel

theorem witness_CompletionOfAPoll : (rich.entryUse 2 = none ∧ (rich.entry 0).issue ≠ 2#8)
    ∧ (rich.entryUse 0 = some use48 ∧ (rich.entry 0).issue = 1#8 ∧ use48.dueAfterRun = none ∧ use48.state ≠ .failed
      ∧ use48.value = none)
    ∧ (rich.entryUse 1 = some use4A ∧ use4A.state = .failed)
    ∧ ((entry { valid48 with state := .stale }).entryUse 0 = some { valid48 with state := .stale }
      ∧ valid48.value = some ⟨[1#8, 2#8], 0⟩)
    ∧ (entry { valid48 with dueAfterRun := some 100 }).entryUse 0 = some { valid48 with dueAfterRun := some 100 } := by
  decide +kernel

/-! ### The dispatcher -/

/-- The device with H1's UNDER LOCK write to target 49h, which nobody holds, alone in a request list. -/
def unheld : State :=
  ((rich.setList .h0 []).setList .h1 [2]).setSlot 2
    ⟨1#8, some { req with owner := .h1, desc := { write48 with target := 0x49#8, underLock := true } }⟩

theorem witness_EligibleWorkIsOffered : (rich.list .h0 = [] ++ (0 : SlotId) :: [] ∧ (0 : SlotId) ∉ ([] : List SlotId))
    ∧ (∀ p n, n ∈ rich.list p → rich.notLockedDue p n = false)
    ∧ (2 ∈ unheld.list .h1 ∧ unheld.notLockedDue .h1 2 = true
      ∧ unheld.request 2 = some { req with owner := .h1, desc := { write48 with target := 0x49#8, underLock := true } })
    ∧ ∀ q m, m ∈ unheld.list q → m = 2 := by
  refine ⟨by decide +kernel, fun p => ?_, by decide +kernel, fun q => ?_⟩
  · cases p <;> decide +kernel
  · cases q <;> decide +kernel

/-- What the small device offers with the bus free: H0 its write, and M the poll of entry 0. -/
theorem free_candidates {y : Participant} {w : Work} (h : (inState .free).candidate y = some w) :
    y = .host .h0 ∧ w = .request 0 ∨ y = .maintenance ∧ w = .poll 0 1#8 key48 ⟨.normal, 0, 0, 0, false⟩ := by
  have hm : (inState .free).candidate .maintenance = some (.poll 0 1#8 key48 ⟨.normal, 0, 0, 0, false⟩)
      ∧ (inState .free).candidate (.host .h0) = some (.request 0) ∧ (inState .free).candidate (.host .h1) = none
      ∧ (inState .free).candidate (.host .h2) = none ∧ (inState .free).candidate (.host .h3) = none := by decide +kernel
  rcases y with (_ | _ | _ | _) | _ <;> simp_all

theorem witness_SelectionAndStart :
    ((inState .free).engine = .idle ∧ (inState .free).monitor.state = .free
      ∧ (inState .free).candidate (.host .h0) = some (.request 0) ∧ (inState .free).classOfWork (.request 0) = some .normal)
    ∧ (∀ y v d, (inState .free).candidate y = some v → (inState .free).classOfWork v = some d → WorkClass.normal.code ≤ d.code)
    ∧ (∀ y v, y ∈ ((inState .free).pointers.get .normal).following.takeWhile (· != .host .h0) →
        (inState .free).candidate y = some v → (inState .free).classOfWork v ≠ some .normal)
    ∧ rich.monitor.state ≠ .free
    ∧ (Rate.khz100.khz = min rich.params.busRate.khz x48L.speed.khz ∧ rich.request 0 = some req
      ∧ rich.targetAt req.desc.target = some x48L)
    ∧ (rich.entryUse 0 = some use48 ∧ rich.targetAt key48.addr = some x48L ∧ use48.dueTimer = none)
    ∧ ((entry valid48).entryUse 0 = some valid48 ∧ valid48.dueTimer ≠ none)
    ∧ rich.target 2 = some x4A ∧ rich.targetAt x4A.addr = some x4A := by
  refine ⟨by decide +kernel, fun y v d h hd => ?_, fun y v hy => ?_, by decide +kernel, by decide +kernel, by decide +kernel,
    by decide +kernel, by decide +kernel⟩
  · have hc : (inState .free).classOfWork v = some .normal := by
      rcases free_candidates h with ⟨-, rfl⟩ | ⟨-, rfl⟩ <;> decide +kernel
    rw [hc] at hd
    cases hd
    exact Nat.le_refl _
  · exact absurd hy (by
      rw [show ((inState .free).pointers.get .normal).following.takeWhile (· != .host .h0) = [] by decide +kernel]
      exact List.not_mem_nil)

/-! ### The field bus engine -/

/-- The small device with a transfer on the engine, its slot 0 as given. -/
def carrying (m : MonitorState) (f : Transfer) (r : Request) : State :=
  ((inState m).setEngine (.transfer f)).setSlot 0 ⟨1#8, some r⟩

def active : Request := { req with state := .active, attempts := 1 }
def onRequest : Transfer := ⟨.request 0, .khz100, 10, 0, none, false⟩
def onPoll : Transfer := ⟨.poll 0 1#8 key48 ⟨.normal, 0, 6, 0, true⟩, .khz100, 10, 1, none, false⟩
def onProbe : Transfer := ⟨.probe 2 0x4A#8 ⟨.normal, 0, 7, 0, true⟩, .khz100, 10, 2, none, false⟩
def held48 : Transfer := { onRequest with stretch := some ⟨0, 10⟩ }

/-- The small device with slot 0's request on the bus, its abort-pending flag set since the START. -/
def flaggedAs (r : Request) : State := carrying .owned { onRequest with flagAtStart := true } { r with abortPending := true }

theorem flaggedAs_flagged (r : Request) : (flaggedAs r).flagged { onRequest with flagAtStart := true } :=
  ⟨rfl, 0, { r with abortPending := true }, rfl, by simp [flaggedAs, carrying], rfl⟩

theorem not_flagged {s : State} {f : Transfer} (h : f.flagAtStart = false) : ¬ s.flagged f := fun g => by have := g.1; simp [h] at this

def reading (k : Kind) (n : Nat) : Request := { active with desc := { write48 with kind := k, data := [], readLen := n } }

theorem witness_StartAndStretch :
    let s := carrying .free onRequest active
    (s.inReset = false ∧ s.engine = .transfer onRequest ∧ s.monitor.state = .free ∧ s.request 0 = some active)
    ∧ (carrying .free onPoll req).engine = .transfer onPoll
    ∧ ((carrying .owned onRequest active).monitor.state = .owned ∧ onRequest.stretch = none)
    ∧ ((carrying .owned held48 active).engine = .transfer held48 ∧ held48.stretch = some ⟨0, 10⟩
      ∧ 0 + 10 ≤ State.now { carrying .owned held48 active with now := 10 }
      ∧ (carrying .owned held48 active).shape held48.work = some ⟨.write, 0, 2, 0⟩)
    ∧ ¬ (carrying .owned held48 active).flagged held48
    ∧ (flaggedAs active).flagged { onRequest with flagAtStart := true } :=
  ⟨by decide +kernel, by decide +kernel, by decide +kernel, by decide +kernel, not_flagged rfl, flaggedAs_flagged active⟩

theorem witness_TransfersEnd :
    (let s := carrying .owned onRequest active;
      s.request 0 = some active ∧ s.inReset = false ∧ s.engine = .transfer onRequest ∧ s.monitor.state = .owned
        ∧ onRequest.stretch = none ∧ active.desc.kind = .write ∧ active.desc.readLen = 0 ∧ 1 < active.desc.data.length
        ∧ active.attempts < 1 + s.params.addressRetries)
    ∧ (carrying .owned onRequest { active with abortPending := true }).request 0 = some { active with abortPending := true }
    ∧ (carrying .owned onRequest { active with attempts := 2 }).request 0 = some { active with attempts := 2 }
    ∧ (let r := { active with desc := { write48 with kind := .indexedRead, index := [0x10#8], data := [], readLen := 2 } };
      (carrying .owned onRequest r).request 0 = some r ∧ [1#8, 2#8].length = r.desc.readLen ∧ [1#8].length < r.desc.readLen)
    ∧ ((carrying .owned onPoll req).engine = .transfer onPoll ∧ [1#8, 2#8].length = key48.len
      ∧ onPoll.attempts < 1 + (carrying .owned onPoll req).params.addressRetries)
    ∧ ((carrying .owned onProbe req).engine = .transfer onProbe
      ∧ 1 + (carrying .owned onProbe req).params.addressRetries ≤ onProbe.attempts)
    ∧ key48.index ≠ [] ∧ (¬ (carrying .owned onRequest active).flagged onRequest)
    ∧ ∀ r ∈ [active, reading .read 2, reading .read 1, reading .probe 0],
      (flaggedAs r).flagged { onRequest with flagAtStart := true }
        ∧ (flaggedAs r).request 0 = some { r with abortPending := true } ∧ (flaggedAs r).monitor.state = .owned
        ∧ (flaggedAs r).engine = .transfer { onRequest with flagAtStart := true } :=
  ⟨by decide +kernel, by decide +kernel, by decide +kernel, by decide +kernel, by decide +kernel, by decide +kernel,
    by decide +kernel, not_flagged rfl, fun r _ => ⟨flaggedAs_flagged r, by simp [flaggedAs, carrying], rfl, rfl⟩⟩

/-- The limit is 8: a request, a poll and a probe below it, and a request and a probe at it. -/
theorem witness_LostTransfers :
    (let s := carrying .owned onRequest active;
      s.inReset = false ∧ s.engine = .transfer onRequest ∧ s.monitor.state = .owned ∧ onRequest.stretch = none
        ∧ s.shape onRequest.work = some ⟨.write, 0, 2, 0⟩ ∧ s.request 0 = some active ∧ active.losses + 1 < s.params.lossLimit)
    ∧ (carrying .free onRequest active).monitor.state = .free
    ∧ (let r := { active with losses := 7 };
      (carrying .owned onRequest r).request 0 = some r ∧ (carrying .owned onRequest r).params.lossLimit ≤ r.losses + 1)
    ∧ (carrying .owned onRequest { active with abortPending := true }).request 0 = some { active with abortPending := true }
    ∧ (carrying .owned onRequest { active with orphan := true }).request 0 = some { active with orphan := true }
    ∧ ((carrying .owned onRequest active).setTarget 0 (some { x4A with addr := 0x48#8 })).targetAt active.desc.target
      = some { x4A with addr := 0x48#8 }
    ∧ ((carrying .owned onPoll req).engine = .transfer onPoll ∧ (6 : Nat) + 1 < (carrying .owned onPoll req).params.lossLimit
      ∧ ((carrying .owned onPoll req).setEntry 0 ⟨1#8, some valid48⟩).entry 0 = ⟨1#8, some valid48⟩ ∧ valid48.pending = none)
    ∧ ((carrying .owned onProbe req).engine = .transfer onProbe ∧ (carrying .owned onProbe req).params.lossLimit ≤ 7 + 1)
    ∧ ((carrying .owned { onProbe with work := .probe 2 0x4A#8 ⟨.normal, 0, 6, 0, true⟩ } req).setTarget 2 (some x4A)).target 2
      = some x4A
    ∧ ¬ (carrying .owned onRequest active).flagged onRequest :=
  ⟨by decide +kernel, by decide +kernel, by decide +kernel, by decide +kernel, by decide +kernel, by decide +kernel,
    by decide +kernel, by decide +kernel, by decide +kernel, not_flagged rfl⟩

/-! ### The bus monitor -/

/-- The small device with the monitor in a state and the lines and the engine as given. -/
def watching (m : MonitorState) (l : Lines) (e : Engine) : State :=
  (world.setMonitor { world.monitor with state := m, lines := l, idle := none }).setEngine e

theorem witness_MonitorObserves :
    (∀ m ∈ [MonitorState.unknown, .free, .foreign, .faulted], (watching m ⟨true, true⟩ .idle).inReset = false
      ∧ (watching m ⟨true, true⟩ .idle).monitor.state = m ∧ (watching m ⟨true, true⟩ .idle).engine = .idle
      ∧ (watching m ⟨true, true⟩ .idle).monitor.lines = ⟨true, true⟩)
    ∧ ((watching .recovering ⟨true, false⟩ (.recovery false)).monitor.state = .recovering
      ∧ (watching .recovering ⟨true, false⟩ (.recovery false)).engine = .recovery false)
    ∧ (watching .foreign ⟨true, false⟩ .idle).monitor.lines = ⟨true, false⟩
    ∧ (watching .unknown ⟨false, true⟩ .idle).monitor.lines = ⟨false, true⟩
    ∧ (watching .foreign ⟨false, false⟩ .idle).monitor.lines = ⟨false, false⟩ := by decide +kernel

/-- The timers at their expiry, and the second and the third failed attempt. -/
theorem witness_RecoveryAndFault :
    let timed := fun (m : MonitorState) (l : Lines) (e : Engine) => { watching m l e with now := 25 }
    (∀ m ∈ [MonitorState.unknown, .foreign], ((timed m ⟨false, true⟩ .idle).setMonitor
        { (timed m ⟨false, true⟩ .idle).monitor with hang := some ⟨0, 25⟩ }).monitor.hang = some ⟨0, 25⟩ ∧ 0 + 25 ≤ (25 : Nat)
      ∧ (timed m ⟨false, true⟩ .idle).monitor.lines ≠ ⟨true, true⟩)
    ∧ (timed .foreign ⟨true, true⟩ .idle).monitor.lines = ⟨true, true⟩
    ∧ ((timed .recovering ⟨false, true⟩ (.recovery false)).engine = .recovery false)
    ∧ (world.monitor.idle = some ⟨0, 1⟩ ∧ 0 + 1 ≤ State.now { world with now := 1 } ∧ world.monitor.state = .unknown
      ∧ world.monitor.lines = ⟨true, true⟩)
    ∧ (let s := world.setMonitor { world.monitor with state := .faulted, retry := some ⟨0, 1000⟩ };
      s.monitor.retry = some ⟨0, 1000⟩ ∧ 0 + 1000 ≤ State.now { s with now := 1000 } ∧ s.takesHeader .h0 = true
        ∧ s.supervisor = .h0 ∧ (s.port .h0).attached = true)
    ∧ ((watching .recovering ⟨false, true⟩ (.recovery true)).engine = .recovery true
      ∧ min (1 + 1) 255 < (3 : Nat) ∧ 3 ≤ min (2 + 1) 255)
    ∧ (0 ∈ world.list .h0 ∧ world.request 0 = some req ∧ req.state = .queued ∧ req.orphan = false)
    ∧ (∀ p ∈ Port.all, (world.setList .h0 []).list p = []) := by decide +kernel

/-! ### The device as a whole -/

theorem witness_OnlyTheseCommandsWrite : (∃ t, exec .millisecondBoundary rich = .next t)
    ∧ (∃ t, exec (.frameEnd .h0) (answering false) = .next t) ∧ ((answering false).port .h0).resetPending = false
    ∧ rich.request 0 = some req ∧ rich.target 0 = some x48L :=
  ⟨⟨_, rfl⟩, answered (f := fun t => (t.port .h0).frame) (v := .idle) (by decide +kernel), by decide, by decide +kernel,
    by decide +kernel⟩

end Sys2Proof.Tests
end

/-! ## What waits in the request lists

What eligibility and the NOT LOCKED condition read of the state, and the law of the request lists that the completions
keep. -/

namespace Sys2Proof.Machine

open Sys2Proof

variable {s t : State} {p : Port} {n : SlotId}

/-! ### Records of one block after an update of another -/

theorem list_setSlot (s : State) (n : SlotId) (v : Slot) : (s.setSlot n v).list = s.list := list_of_lists (by simp)
theorem list_updRequest (s : State) (n : SlotId) (f : Request → Request) : (s.updRequest n f).list = s.list :=
  list_of_lists (by simp)
theorem request_setList (s : State) (p : Port) (l : List SlotId) : (s.setList p l).request = s.request :=
  request_of_slots (by simp)
theorem request_setTarget (s : State) (u : TargetId) (v : Option Target) : (s.setTarget u v).request = s.request :=
  request_of_slots (by simp)

theorem holderAt_of_targets (h : t.targets = s.targets) : t.holderAt = s.holderAt := by
  funext a
  simp only [State.holderAt, targetAt_of_targets h]

theorem waitsAt_of_targets (h : t.targets = s.targets) : t.waitsAt = s.waitsAt := by
  funext q a
  simp only [State.waitsAt, targetAt_of_targets h]

/-! ### Order, fence and locks -/

/-- Due NOT LOCKED: QUEUED and UNDER LOCK in front of its target's and its port's fences, with nobody holding the lock and the
port not waiting for it (R36). -/
theorem notLockedDue_iff : s.notLockedDue p n = true ↔ ∃ r, s.request n = some r ∧ r.state = .queued
    ∧ r.desc.underLock = true ∧ s.orderHolds p n r.desc = true ∧ s.fenceHolds p n r.desc = true
    ∧ s.holderAt r.desc.target = none ∧ s.waitsAt p r.desc.target = false := by
  simp only [State.notLockedDue, Option.any_eq_true, Bool.and_eq_true, beq_iff_eq, bne_iff_ne, ne_eq, State.lockHolds,
    Bool.not_eq_true']
  refine exists_congr fun r => and_congr_right fun _ => ?_
  cases s.holderAt r.desc.target with
  | none => simp [and_assoc]
  | some q => simp +contextual

/-- Eligible: QUEUED, with the four conditions of Table 2-2 (R31). -/
theorem eligible_iff : s.eligible p n = true ↔ ∃ r, s.request n = some r ∧ r.state = .queued
    ∧ s.orderHolds p n r.desc = true ∧ s.fenceHolds p n r.desc = true ∧ s.lockHolds p r.desc = true
    ∧ s.ownershipHolds p r.desc = true := by
  simp [State.eligible, Option.any_eq_true, and_assoc]

/-- The slots older than one that stands behind a known part of the list (R6). -/
theorem older_eq {older younger : List SlotId} (h : s.list p = older ++ n :: younger) (hn : n ∉ older) :
    s.older p n = older := by
  rw [State.older, h, List.takeWhile_append_of_pos fun m hm => by simpa using fun e : m = n => hn (e ▸ hm)]
  simp

/-- Per-target order reads the targets of the older slots (R32). -/
theorem orderHolds_iff {d : Descriptor} : s.orderHolds p n d = true ↔
    ∀ m ∈ s.older p n, ∀ r, s.request m = some r → r.desc.target ≠ d.target := by
  simp [State.orderHolds, Option.all_eq_true]

/-- The fence condition reads the FENCE flags of the older slots (R33). -/
theorem fenceHolds_iff {d : Descriptor} : s.fenceHolds p n d = true ↔
    (∀ m ∈ s.older p n, ∀ r, s.request m = some r → r.desc.fence = false) ∧ (d.fence = true → s.older p n = []) := by
  simp only [State.fenceHolds, Bool.and_eq_true, List.all_eq_true, Option.all_eq_true, Bool.not_eq_true',
    Bool.or_eq_true, List.isEmpty_iff]
  refine and_congr_right fun _ => ?_
  cases d.fence <;> simp

/-- Order and fence hold again where the older slots are among those of before, with the descriptors of before. -/
theorem queue_conditions_mono {d : Descriptor} (hsub : ∀ m ∈ t.older p n, m ∈ s.older p n)
    (hd : ∀ m ∈ t.older p n, ∀ r, t.request m = some r → ∃ q, s.request m = some q ∧ q.desc = r.desc)
    (ho : s.orderHolds p n d = true) (hf : s.fenceHolds p n d = true) :
    t.orderHolds p n d = true ∧ t.fenceHolds p n d = true := by
  rw [orderHolds_iff] at ho ⊢
  rw [fenceHolds_iff] at hf ⊢
  obtain ⟨hf, hempty⟩ := hf
  refine ⟨fun m hm r hr => ?_, fun m hm r hr => ?_, fun hfence => ?_⟩
  · obtain ⟨q, hq, he⟩ := hd m hm r hr
    exact he ▸ ho m (hsub m hm) q hq
  · obtain ⟨q, hq, he⟩ := hd m hm r hr
    exact he ▸ hf m (hsub m hm) q hq
  · exact List.eq_nil_iff_forall_not_mem.2 fun m hm => by simpa [hempty hfence] using hsub m hm

/-! ### The law of the request lists -/

/-- What the completions need of the request lists (R6): each slot once, and each one a slot of the port. -/
def State.listLaw (s : State) : Prop :=
  (∀ p, (s.list p).Nodup) ∧ ∀ p n, n ∈ s.list p → ∃ r, s.request n = some r ∧ r.owner = p

theorem listLaw_of_poolLaw (h : s.poolLaw) : s.listLaw := by
  obtain ⟨hnodup, hlist, -⟩ := h
  refine ⟨hnodup, fun p n hn => ?_⟩
  obtain ⟨r, hr, ho, -⟩ := (hlist p n).1 hn
  exact ⟨r, hr, ho⟩

/-- A slot stands in the list of one port alone. -/
theorem listLaw_port_unique {q : Port} (h : s.listLaw) (hp : n ∈ s.list p) (hq : n ∈ s.list q) : p = q := by
  obtain ⟨r, hr, rfl⟩ := h.2 p n hp
  obtain ⟨r', hr', rfl⟩ := h.2 q n hq
  rw [hr] at hr'
  cases hr'
  rfl

/-- The law stays where lists and owners do. -/
theorem listLaw_of_same (h : s.listLaw) (hl : t.list = s.list)
    (ho : ∀ m, (t.request m).map Request.owner = (s.request m).map Request.owner) : t.listLaw := by
  rw [State.listLaw, hl]
  refine ⟨h.1, fun p m hm => ?_⟩
  obtain ⟨r, hr, hown⟩ := h.2 p m hm
  have := ho m
  rw [hr, Option.map_some, Option.map_eq_some_iff] at this
  obtain ⟨q, hq, he⟩ := this
  exact ⟨q, hq, he.trans hown⟩

theorem listLaw_of_fields (h : s.listLaw) (hl : t.lists = s.lists) (hr : t.slots = s.slots) : t.listLaw :=
  listLaw_of_same h (list_of_lists hl) fun m => by rw [request_of_slots hr]

/-- The law stays where one slot changes and leaves the lists. -/
theorem listLaw_of_drop (h : s.listLaw) (hl : ∀ q, t.list q = (s.list q).filter (· != n))
    (hr : ∀ m, m ≠ n → t.request m = s.request m) : t.listLaw := by
  refine ⟨fun q => (hl q) ▸ (h.1 q).filter _, fun q m hm => ?_⟩
  rw [hl, List.mem_filter, bne_iff_ne] at hm
  rw [hr m hm.2]
  exact h.2 q m hm.1

/-- A slot that is not listed is filtered out of no list. -/
theorem filter_ne_of_not_mem {l : List SlotId} (h : n ∉ l) : l.filter (· != n) = l :=
  List.filter_eq_self.2 fun m hm => by simpa using fun e : m = n => h (e ▸ hm)

/-- Under the law, leaving the owner's list is leaving every list. -/
theorem filter_owner_eq (h : s.listLaw) {r : Request} (hr : s.request n = some r) (q : Port) :
    (if q = r.owner then (s.list q).filter (· != n) else s.list q) = (s.list q).filter (· != n) := by
  split
  · rfl
  · next hq =>
    refine (filter_ne_of_not_mem fun hn => hq ?_).symm
    obtain ⟨r', hr', ho⟩ := h.2 q n hn
    rw [hr] at hr'
    cases hr'
    exact ho.symm

theorem listLaw_freeSlotOf (h : s.listLaw) (n : SlotId) : (s.freeSlotOf n).listLaw := by
  cases hr : s.request n with
  | none => simpa [State.freeSlotOf, hr] using h
  | some r =>
    refine listLaw_of_drop (n := n) h (fun q => ?_) fun m hm => by simp [hm]
    rw [list_freeSlotOf s hr, filter_owner_eq h hr]

theorem list_finishSlot (s : State) (n : SlotId) (r : Request) (x : Result) (q : Port) :
    (s.finishSlot n r x).list q = if q = r.owner then (s.list q).filter (· != n) else s.list q := by
  rw [State.finishSlot, list_setSlot, list_unlist]
  split
  · next e => rw [e]
  · rfl

/-- A completed slot leaves its owner's request list, and every list keeps its order (R6, R13). -/
theorem list_completeSlot {r : Request} (hr : s.request n = some r) (x : Result) (q : Port) :
    (s.completeSlot n x).list q = if q = r.owner then (s.list q).filter (· != n) else s.list q := by
  have told : ∀ z : State, z = (if r.desc.notify then (s.finishSlot n r x).offer (s.completedNotice n r x) r.owner
      else s.finishSlot n r x) → z.list = (s.finishSlot n r x).list ∧ z.request = (s.finishSlot n r x).request := by
    rintro z rfl
    split
    · exact ⟨list_of_lists (by simp), request_of_slots (by simp)⟩
    · exact ⟨rfl, rfl⟩
  obtain ⟨hl, hq⟩ := told _ rfl
  simp only [State.completeSlot, hr]
  split
  · exact list_freeSlotOf s hr q
  · split
    · have hd : (s.finishSlot n r x).request n = some { r with state := .done x, abortPending := false } := by
        simp [State.finishSlot]
      rw [list_freeSlotOf _ ((congrFun hq n).trans hd), hl, list_finishSlot]
      split <;> simp
    · rw [hl, list_finishSlot]

theorem listLaw_completeSlot (h : s.listLaw) (n : SlotId) (x : Result) : (s.completeSlot n x).listLaw := by
  cases hr : s.request n with
  | none => simpa [State.completeSlot, hr] using h
  | some r =>
    refine listLaw_of_drop (n := n) h (fun q => ?_) fun m hm => by simp [hm]
    rw [list_completeSlot hr, filter_owner_eq h hr]

theorem listLaw_completeQueued (h : s.listLaw) (p : Port) (c : Request → Bool) (o : TransferOutcome) :
    (s.completeQueued p c o).listLaw := List.foldlRecOn _ _ h fun _ ha n _ => listLaw_completeSlot ha n _

theorem listLaw_completeQueuedAll (h : s.listLaw) (c : Request → Bool) (o : TransferOutcome) :
    (s.completeQueuedAll c o).listLaw := List.foldlRecOn _ _ h fun _ ha p _ => listLaw_completeQueued ha p c o

/-- One step of the pass that makes the NOT LOCKED completions of a port (R36). -/
def State.completeIfDue (p : Port) (s : State) (n : SlotId) : State :=
  if s.notLockedDue p n then s.completeSlot n (Result.without .notLocked) else s

theorem completeIfDue_of_not_due (h : s.notLockedDue p n = false) : s.completeIfDue p n = s := by
  simp [State.completeIfDue, h]

theorem completeIfDue_of_due (h : s.notLockedDue p n = true) :
    s.completeIfDue p n = s.completeSlot n (Result.without .notLocked) := by
  simp [State.completeIfDue, h]

theorem listLaw_completeIfDue (h : s.listLaw) (p : Port) (n : SlotId) : (s.completeIfDue p n).listLaw := by
  unfold State.completeIfDue
  split
  · exact listLaw_completeSlot h n _
  · exact h

theorem listLaw_notLockedOf (h : s.listLaw) (p : Port) : (s.notLockedOf p).listLaw :=
  List.foldlRecOn _ _ h fun _ ha n _ => listLaw_completeIfDue ha p n

theorem listLaw_notLockedAll (h : s.listLaw) : s.notLockedAll.listLaw :=
  List.foldlRecOn _ _ h fun _ ha p _ => listLaw_notLockedOf ha p

theorem listLaw_updRequest (h : s.listLaw) (n : SlotId) {f : Request → Request} (hf : ∀ r, (f r).owner = r.owner) :
    (s.updRequest n f).listLaw := by
  refine listLaw_of_same h (list_of_lists (by simp)) fun m => ?_
  rw [request_updRequest]
  split
  · next e => subst e; cases s.request m <;> simp [hf]
  · rfl

/-- A FREE slot stands in no list, so that it can join the tail of one (R3, R11). -/
theorem listLaw_allocate (h : s.listLaw) (p : Port) {n : SlotId} (hn : s.request n = none) (d : Descriptor) :
    (s.allocate p n d).listLaw := by
  have hfree : ∀ q, n ∉ s.list q := fun q hq => by
    obtain ⟨r, hr, -⟩ := h.2 q n hq
    simp [hn] at hr
  have hlist : ∀ q, (s.allocate p n d).list q = if q = p then s.list p ++ [n] else s.list q := fun q => by
    simp only [State.allocate, list_setList]
    split
    · rfl
    · exact congrFun (list_of_lists (by simp)) q
  have hreq : ∀ m, (s.allocate p n d).request m = if m = n then some (s.newRequest p d) else s.request m := fun m => by
    rw [State.allocate, request_setList, request_setSlot]
  refine ⟨fun q => ?_, fun q m hm => ?_⟩
  · rw [hlist]
    split
    · next e => exact (h.1 p).append (List.nodup_singleton n) (by simpa using hfree p)
    · exact h.1 q
  · rw [hlist] at hm
    rw [hreq]
    by_cases e : m = n
    · subst e
      refine ⟨_, if_pos rfl, ?_⟩
      split at hm
      · next hq => exact hq.symm
      · exact absurd hm (hfree q)
    · rw [if_neg e]
      refine h.2 q m ?_
      split at hm
      · next hq => subst hq; simpa [e] using hm
      · exact hm

end Sys2Proof.Machine

/-! ## The re-evaluation leaves nothing due

One pass of the NOT LOCKED completions finds them all, and a selection starts something where anything is offered. -/

namespace Sys2Proof.Machine

open Sys2Proof

variable {s t : State} {p q : Port} {n : SlotId}

/-- A NOT LOCKED completion that is due was due before, where the slot was QUEUED with the same descriptor, the older slots
are those of before, and the lock was free and not waited for. -/
theorem notLockedDue_mono (h : t.notLockedDue p n = true)
    (hn : ∀ r, t.request n = some r → r.state = .queued → ∃ r', s.request n = some r' ∧ r'.state = .queued ∧ r'.desc = r.desc)
    (hsub : ∀ m ∈ s.older p n, m ∈ t.older p n)
    (hd : ∀ m ∈ s.older p n, ∀ r, s.request m = some r → ∃ r', t.request m = some r' ∧ r'.desc = r.desc)
    (hl : ∀ a, t.holderAt a = none → s.holderAt a = none ∧ (t.waitsAt p a = false → s.waitsAt p a = false)) :
    s.notLockedDue p n = true := by
  obtain ⟨r, hr, hq, hu, ho, hf, hh, hw⟩ := notLockedDue_iff.1 h
  obtain ⟨r', hr', hq', he⟩ := hn r hr hq
  obtain ⟨ho', hf'⟩ := queue_conditions_mono hsub hd ho hf
  obtain ⟨hh', hw'⟩ := hl _ hh
  exact notLockedDue_iff.2 ⟨r', hr', hq', by rw [he]; exact ⟨hu, ho', hf', hh', hw' hw⟩⟩

/-- Whether a completion is due reads the older slots, the slot itself and the locks. -/
theorem notLockedDue_congr (ho : t.older p n = s.older p n)
    (hr : ∀ m, m = n ∨ m ∈ s.older p n → t.request m = s.request m) (ht : t.targets = s.targets) :
    t.notLockedDue p n = s.notLockedDue p n := by
  have hh := holderAt_of_targets ht
  have hw := waitsAt_of_targets ht
  have hn := hr n (.inl rfl)
  rw [Bool.eq_iff_iff]
  constructor <;> refine fun h => notLockedDue_mono h (fun r h1 h2 => ⟨r, ?_, h2, rfl⟩) (by simp [ho])
    (fun m hm r h1 => ⟨r, ?_, rfl⟩) (by simp [hh, hw])
  · rw [← hn, h1]
  · rw [hr m (.inr hm), h1]
  · rw [hn, h1]
  · rw [← hr m (.inr (ho ▸ hm)), h1]

/-- No NOT LOCKED completion of a port is due (R36). -/
def State.cleared (s : State) (p : Port) : Prop := ∀ n ∈ s.list p, s.notLockedDue p n = false

@[simp] theorem completeIfDue_targets (s : State) (p : Port) (n : SlotId) : (s.completeIfDue p n).targets = s.targets := by
  unfold State.completeIfDue
  split <;> simp

/-- One step of a pass bears on its own slot alone. -/
theorem request_completeIfDue_of_ne {m : SlotId} (h : m ≠ n) : (s.completeIfDue p n).request m = s.request m := by
  unfold State.completeIfDue
  split <;> simp [h]

/-- One step of a pass takes no other slot from a list. -/
theorem list_completeIfDue_of_not_mem (h : n ∉ s.list q) : (s.completeIfDue p n).list q = s.list q := by
  unfold State.completeIfDue
  split
  · cases hr : s.request n with
    | none => simp [State.completeSlot, hr]
    | some r => rw [list_completeSlot hr, filter_ne_of_not_mem h, ite_self]
  · rfl

/-- The pass over a port's list: what stands before the place it has reached is not due, for a completion bears on younger
slots alone. -/
theorem foldl_completeIfDue_cleared (p : Port) (l : List SlotId) : ∀ (s : State) (before : List SlotId), s.listLaw →
    s.list p = before ++ l → (∀ m ∈ before, s.notLockedDue p m = false) → (l.foldl (State.completeIfDue p) s).cleared p := by
  induction l with
  | nil =>
    intro s before _ hl hb n hn
    exact hb n (by simpa [hl] using hn)
  | cons n l ih =>
    intro s before h hl hb
    rw [List.foldl_cons]
    cases hd : s.notLockedDue p n with
    | false =>
      rw [completeIfDue_of_not_due hd]
      refine ih s (before ++ [n]) h (by simp [hl]) fun m hm => ?_
      rcases List.mem_append.1 hm with hm | hm
      · exact hb m hm
      · rw [List.mem_singleton.1 hm, hd]
    | true =>
      obtain ⟨-, hnl, hdisj⟩ := List.nodup_append.1 (hl ▸ h.1 p)
      have hnb : n ∉ before := fun hn => hdisj n hn n (by simp) rfl
      have hl' : (s.completeIfDue p n).list p = before ++ l := by
        obtain ⟨r, hr, ho⟩ := h.2 p n (by simp [hl])
        rw [completeIfDue_of_due hd, list_completeSlot hr, if_pos ho.symm, hl, List.filter_append,
          filter_ne_of_not_mem hnb, List.filter_cons, if_neg (by simp), filter_ne_of_not_mem (List.nodup_cons.1 hnl).1]
      refine ih _ before (listLaw_completeIfDue h p n) hl' fun m hm => ?_
      rw [← hb m hm]
      obtain ⟨b1, b2, hb12, hm1⟩ := List.eq_append_cons_of_mem hm
      have ho : s.older p m = b1 := older_eq (by rw [hl, hb12, List.append_assoc, List.cons_append]) hm1
      have ho' : (s.completeIfDue p n).older p m = b1 :=
        older_eq (by rw [hl', hb12, List.append_assoc, List.cons_append]) hm1
      refine notLockedDue_congr (ho'.trans ho.symm) (fun k hk => request_completeIfDue_of_ne ?_) (by simp)
      rintro rfl
      refine hnb ?_
      rw [ho] at hk
      rcases hk with rfl | hk
      · exact hm
      · simp [hb12, hk]

theorem notLockedOf_cleared (h : s.listLaw) (p : Port) : (s.notLockedOf p).cleared p :=
  foldl_completeIfDue_cleared p (s.list p) s [] h rfl (by simp)

/-- The pass over one port's list leaves the lists of the others, and their slots, as they are. -/
theorem notLockedOf_other (h : s.listLaw) (hpq : q ≠ p) :
    (s.notLockedOf p).list q = s.list q ∧ ∀ m ∈ s.list q, (s.notLockedOf p).request m = s.request m := by
  refine List.foldlRecOn (s.list p) (State.completeIfDue p)
    (motive := fun a => a.list q = s.list q ∧ ∀ m ∈ s.list q, a.request m = s.request m) ⟨rfl, fun _ _ => rfl⟩
    fun a ha n hn => ?_
  have hnq : n ∉ s.list q := fun hq => hpq (listLaw_port_unique h hq hn)
  refine ⟨(list_completeIfDue_of_not_mem (ha.1 ▸ hnq)).trans ha.1, fun m hm => ?_⟩
  rw [request_completeIfDue_of_ne fun e : m = n => hnq (e ▸ hm), ha.2 m hm]

theorem cleared_notLockedOf (h : s.listLaw) (hc : s.cleared q) (p : Port) : (s.notLockedOf p).cleared q := by
  by_cases hpq : q = p
  · exact hpq ▸ notLockedOf_cleared h p
  · obtain ⟨hl, hr⟩ := notLockedOf_other h hpq
    intro n hn
    rw [hl] at hn
    have ho : (s.notLockedOf p).older q n = s.older q n := by rw [State.older, hl, State.older]
    rw [← hc n hn]
    refine notLockedDue_congr ho (fun m hm => hr m ?_) (by simp)
    rcases hm with rfl | hm
    · exact hn
    · exact List.takeWhile_subset _ hm

/-- After the NOT LOCKED completions of every port none is due (R36). -/
theorem notLockedAll_cleared (h : s.listLaw) (q : Port) : s.notLockedAll.cleared q := by
  have pass : ∀ (l : List Port) (a : State), a.listLaw → q ∈ l ∨ a.cleared q → (l.foldl State.notLockedOf a).cleared q := by
    intro l
    induction l with
    | nil => simp
    | cons p l ih =>
      intro a ha hq
      refine ih _ (listLaw_notLockedOf ha p) ?_
      rcases hq with hq | hq
      · rcases List.mem_cons.1 hq with rfl | hq
        · exact .inr (notLockedOf_cleared ha q)
        · exact .inl hq
      · exact .inr (cleared_notLockedOf ha hq p)
  exact pass Port.all s h (.inl (Port.mem_all q))

/-! ### Selection -/

theorem pollItem_eq_none {e : EntryId} : s.pollItem e = none ↔
    ∀ u, s.entryUse e = some u → s.holderAt u.key.addr = none → u.pending = none := by
  simp only [State.pollItem]
  cases s.entryUse e with
  | none => simp
  | some u => cases s.holderAt u.key.addr <;> simp

theorem probeItem_eq_none {u : TargetId} : s.probeItem u = none ↔
    ∀ x, s.target u = some x → x.lock = none → x.probe = none := by
  simp only [State.probeItem]
  cases s.target u with
  | none => simp
  | some x => cases h : x.lock <;> simp [h]

theorem earliest_eq_none {l : List Work} : earliest l = none ↔ l = [] := by
  cases l with
  | nil => simp [earliest]
  | cons w l =>
    simp only [earliest]
    split
    · simp
    · split <;> simp

/-- Nothing is offered where no slot is eligible and no item is (R31, R39). -/
theorem candidate_eq_none_iff : (∀ x, s.candidate x = none) ↔
    (∀ p, ∀ n ∈ s.list p, s.eligible p n = false) ∧ (∀ u, s.probeItem u = none) ∧ ∀ e, s.pollItem e = none := by
  have hm : s.candidate .maintenance = none ↔ (∀ u, s.probeItem u = none) ∧ ∀ e, s.pollItem e = none := by
    simp [State.candidate, State.maintenanceCandidate, earliest_eq_none, State.maintenanceItems]
  have hp : ∀ p, s.candidate (.host p) = none ↔ ∀ n ∈ s.list p, s.eligible p n = false := fun p => by
    simp [State.candidate, State.headCandidate]
  rw [← hm]
  exact ⟨fun h => ⟨fun p => (hp p).1 (h _), h _⟩, fun h x => by
    cases x with
    | host p => exact (hp p).2 (h.1 p)
    | maintenance => exact h.2⟩

/-- Work that is offered has a class. -/
theorem offeredClass_isSome {x : Participant} {w : Work} (h : s.candidate x = some w) :
    ∃ c, s.offeredClass x = some c := by
  cases x with
  | host p =>
    simp only [State.candidate, Option.map_eq_some_iff] at h
    obtain ⟨n, hn, rfl⟩ := h
    obtain ⟨r, hr, -⟩ := headCandidate_queued s hn
    exact ⟨r.cls, by simp [State.offeredClass, State.candidate, hn, State.classOfWork, hr]⟩
  | maintenance =>
    have hw := maintenanceCandidate_maint s h
    cases w with
    | request n => exact absurd rfl (hw n)
    | poll e i k m => exact ⟨m.cls, by simp [State.offeredClass, h, State.classOfWork]⟩
    | probe u a m => exact ⟨m.cls, by simp [State.offeredClass, h, State.classOfWork]⟩

theorem choiceAt_eq_none {c : WorkClass} : s.choiceAt c = none ↔ ∀ x, s.offeredClass x ≠ some c := by
  have hall : ∀ (y x : Participant), x ∈ y.following := by
    rintro ((_ | _ | _ | _) | _) ((_ | _ | _ | _) | _) <;> decide
  simp only [State.choiceAt, List.find?_eq_none, beq_iff_eq]
  exact ⟨fun h x => h x (hall _ x), fun h x _ => h x⟩

/-- A selection chooses somebody who offers (R43). -/
theorem candidate_of_choice {c : WorkClass} {x : Participant} (h : s.choice = some (c, x)) : s.candidate x ≠ none := by
  have found : ∀ {c x}, s.choiceAt c = some x → s.candidate x ≠ none := fun {c x} h hn => by
    have := List.find?_some h
    simp [State.offeredClass, hn] at this
  simp only [State.choice] at h
  split at h
  · next hu => cases h; exact found hu
  · split at h
    · next hn => cases h; exact found hn
    · obtain ⟨y, hb, he⟩ := Option.map_eq_some_iff.1 h
      cases he
      exact found hb

/-- A selection that chooses nobody finds nothing offered (R43). -/
theorem candidate_of_no_choice (h : s.choice = none) (x : Participant) : s.candidate x = none := by
  simp only [State.choice] at h
  split at h
  · cases h
  · next hu =>
    split at h
    · cases h
    · next hn =>
      by_contra hx
      obtain ⟨w, hw⟩ := Option.ne_none_iff_exists'.1 hx
      obtain ⟨c, hc⟩ := offeredClass_isSome hw
      cases c with
      | urgent => exact choiceAt_eq_none.1 hu x hc
      | normal => exact choiceAt_eq_none.1 hn x hc
      | bulk => exact choiceAt_eq_none.1 (Option.map_eq_none_iff.1 h) x hc

end Sys2Proof.Machine

/-! ## Settled states

A state is settled when no NOT LOCKED completion is due and no selection could start anything (R29, R36). The re-evaluation
reaches such a state, and what bears on neither queues, locks nor waiting items stays in one. -/

namespace Sys2Proof.Machine

open Sys2Proof

variable {s t : State}

def State.settled (s : State) : Prop :=
  (∀ p n, n ∈ s.list p → s.notLockedDue p n = false)
    ∧ (s.engine = .idle → s.monitor.state = .free → ∀ x, s.candidate x = none)

/-- No slot becomes QUEUED, leaves its place or its descriptor, and no lock comes free or loses the port that waits for it. -/
structure KeepsQueues (s t : State) : Prop where
  list : t.list = s.list
  desc : ∀ p n r, n ∈ s.list p → s.request n = some r → ∃ r', t.request n = some r' ∧ r'.desc = r.desc
  queued : ∀ n r, t.request n = some r → r.state = .queued →
    ∃ r', s.request n = some r' ∧ r'.state = .queued ∧ r'.desc = r.desc
  holder : t.holderAt = s.holderAt
  waits : ∀ p a, s.holderAt a = none → t.waitsAt p a = false → s.waitsAt p a = false

/-- Beside the queues, no probe or poll becomes due, and no selection becomes possible. -/
structure Quiet (s t : State) : Prop extends KeepsQueues s t where
  probe : ∀ u, s.probeItem u = none → t.probeItem u = none
  poll : ∀ e, s.pollItem e = none → t.pollItem e = none
  bus : t.engine = .idle → t.monitor.state = .free → s.engine = .idle ∧ s.monitor.state = .free

theorem KeepsQueues.older {p : Port} {n : SlotId} (h : KeepsQueues s t) : t.older p n = s.older p n := by
  rw [State.older, h.list, State.older]

theorem KeepsQueues.cleared {p : Port} (h : KeepsQueues s t) (hs : s.cleared p) : t.cleared p := by
  intro n hn
  by_contra hd
  rw [Bool.not_eq_false] at hd
  have := notLockedDue_mono (s := s) hd (h.queued n) (by simp [h.older])
    (fun m hm r hr => h.desc p m r (List.takeWhile_subset _ hm) hr) (fun a ha => ⟨h.holder ▸ ha, h.waits p a (h.holder ▸ ha)⟩)
  rw [hs n (h.list ▸ hn)] at this
  cases this

theorem KeepsQueues.eligible {p : Port} {n : SlotId} (h : KeepsQueues s t) (hs : s.eligible p n = false) :
    t.eligible p n = false := by
  by_contra hd
  rw [Bool.not_eq_false, eligible_iff] at hd
  obtain ⟨r, hr, hq, ho, hf, hl, hown⟩ := hd
  obtain ⟨r', hr', hq', he⟩ := h.queued n r hr hq
  obtain ⟨ho', hf'⟩ := queue_conditions_mono (t := s) (by simp [h.older])
    (fun m hm r hr => h.desc p m r (List.takeWhile_subset _ hm) hr) ho hf
  have : s.eligible p n = true := by
    rw [eligible_iff]
    rw [← he] at ho' hf' hl hown
    exact ⟨r', hr', hq', ho', hf', by simpa [State.lockHolds, h.holder] using hl,
      by simpa [State.ownershipHolds, h.holder] using hown⟩
  rw [hs] at this
  cases this

theorem settled_of_quiet (h : Quiet s t) (hs : s.settled) : t.settled := by
  refine ⟨fun p => h.cleared (hs.1 p), fun hi hf => ?_⟩
  obtain ⟨hi', hf'⟩ := h.bus hi hf
  obtain ⟨hp, hprobe, hpoll⟩ := candidate_eq_none_iff.1 (hs.2 hi' hf')
  exact candidate_eq_none_iff.2 ⟨fun p n hn => h.eligible (hp p n (h.list ▸ hn)), fun u => h.probe u (hprobe u),
    fun e => h.poll e (hpoll e)⟩

/-! ### Quiet changes -/

theorem KeepsQueues.of_fields (hl : t.lists = s.lists) (hr : t.slots = s.slots) (ht : t.targets = s.targets) :
    KeepsQueues s t where
  list := list_of_lists hl
  desc _ n r _ h := ⟨r, by rw [request_of_slots hr, h], rfl⟩
  queued n r h hq := ⟨r, by rw [← request_of_slots hr, h], hq, rfl⟩
  holder := holderAt_of_targets ht
  waits p a _ h := by rwa [waitsAt_of_targets ht] at h

theorem probeItem_of_targets (ht : t.targets = s.targets) : t.probeItem = s.probeItem := by
  funext u
  simp [State.probeItem, target_of_targets ht]

theorem pollItem_of_entries (he : t.entries = s.entries) (hh : t.holderAt = s.holderAt) : t.pollItem = s.pollItem := by
  funext e
  simp [State.pollItem, entryUse_of_entries he, entry_of_entries he, hh]

/-- What bears on none of slots, lists, targets and entries is quiet, if it does not bring the bus to FREE and the engine to
IDLE. -/
theorem Quiet.of_fields (hl : t.lists = s.lists) (hr : t.slots = s.slots) (ht : t.targets = s.targets)
    (he : t.entries = s.entries)
    (hb : t.engine = .idle → t.monitor.state = .free → s.engine = .idle ∧ s.monitor.state = .free) : Quiet s t :=
  have k := KeepsQueues.of_fields hl hr ht
  { k with
    probe := fun u h => (congrFun (probeItem_of_targets ht) u).trans h
    poll := fun e h => (congrFun (pollItem_of_entries he k.holder) e).trans h
    bus := hb }

/-- The same, where engine and monitor stay too. -/
theorem Quiet.of_all_fields (hl : t.lists = s.lists) (hr : t.slots = s.slots) (ht : t.targets = s.targets)
    (he : t.entries = s.entries) (hg : t.engine = s.engine) (hm : t.monitor = s.monitor) : Quiet s t :=
  .of_fields hl hr ht he fun h1 h2 => ⟨hg ▸ h1, hm ▸ h2⟩

theorem Quiet.refl (s : State) : Quiet s s := .of_all_fields rfl rfl rfl rfl rfl rfl

theorem Quiet.trans {u : State} (h : Quiet s t) (k : Quiet t u) : Quiet s u where
  list := k.list.trans h.list
  desc p n r hn hr := by
    obtain ⟨r1, hr1, h1⟩ := h.desc p n r hn hr
    obtain ⟨r2, hr2, h2⟩ := k.desc p n r1 (h.list ▸ hn) hr1
    exact ⟨r2, hr2, h2.trans h1⟩
  queued n r hr hq := by
    obtain ⟨r1, hr1, hq1, h1⟩ := k.queued n r hr hq
    obtain ⟨r2, hr2, hq2, h2⟩ := h.queued n r1 hr1 hq1
    exact ⟨r2, hr2, hq2, h2.trans h1⟩
  holder := k.holder.trans h.holder
  waits p a hf hw := h.waits p a hf (k.waits p a (h.holder ▸ hf) hw)
  probe v hv := k.probe v (h.probe v hv)
  poll e he := k.poll e (h.poll e he)
  bus hi hm := by
    obtain ⟨hi', hm'⟩ := k.bus hi hm
    exact h.bus hi' hm'

theorem Quiet.foldl {β : Type} {f : State → β → State} (hf : ∀ a b, Quiet a (f a b)) (l : List β) :
    Quiet s (l.foldl f s) :=
  List.foldlRecOn l f (Quiet.refl s) fun a ha b _ => ha.trans (hf a b)

/-- A change of a request that keeps its descriptor and does not make it QUEUED. -/
theorem Quiet.updRequest (s : State) (n : SlotId) {f : Request → Request}
    (hf : ∀ r, (f r).desc = r.desc ∧ ((f r).state = .queued → r.state = .queued)) : Quiet s (s.updRequest n f) :=
  have ht : (s.updRequest n f).targets = s.targets := by simp
  have hh := holderAt_of_targets ht
  { list := list_of_lists (by simp)
    desc := fun p m r _ hr => by
      rw [request_updRequest]
      by_cases e : m = n
      · subst e; exact ⟨f r, by simp [hr], (hf r).1⟩
      · exact ⟨r, by simp [e, hr], rfl⟩
    queued := fun m r hr hq => by
      rw [request_updRequest] at hr
      by_cases e : m = n
      · subst e
        rw [if_pos rfl, Option.map_eq_some_iff] at hr
        obtain ⟨r', hr', rfl⟩ := hr
        exact ⟨r', hr', (hf r').2 hq, (hf r').1.symm⟩
      · exact ⟨r, by simpa [e] using hr, hq, rfl⟩
    holder := hh
    waits := fun p a _ h => by rwa [waitsAt_of_targets ht] at h
    probe := fun u h => (congrFun (probeItem_of_targets ht) u).trans h
    poll := fun e h => (congrFun (pollItem_of_entries (by simp) hh) e).trans h
    bus := by simp +contextual }

/-- A change of an entry that keeps its key and makes no poll pending. -/
theorem Quiet.updEntry (s : State) (e : EntryId) {f : MirrorUse → MirrorUse}
    (hf : ∀ u, (f u).key = u.key ∧ (u.pending = none → (f u).pending = none)) : Quiet s (s.updEntry e f) :=
  have k := KeepsQueues.of_fields (s := s) (t := s.updEntry e f) (by simp) (by simp) (by simp)
  { k with
    probe := fun u h => (congrFun (probeItem_of_targets (by simp)) u).trans h
    poll := fun d h => by
      rw [pollItem_eq_none] at h ⊢
      intro u hu hl
      rw [k.holder] at hl
      rw [entryUse_updEntry] at hu
      by_cases e' : d = e
      · subst e'
        rw [if_pos rfl, Option.map_eq_some_iff] at hu
        obtain ⟨v, hv, rfl⟩ := hu
        exact (hf v).2 (h v hv ((hf v).1 ▸ hl))
      · exact h u (by simpa [e'] using hu) hl
    bus := by simp +contextual }

/-- The address search reads the addresses of the targets. -/
theorem findTarget_congr (h : ∀ u, (t.target u).map Target.addr = (s.target u).map Target.addr) :
    t.findTarget = s.findTarget := by
  funext a
  simp only [State.findTarget]
  congr 1
  funext u
  have hu := h u
  cases h1 : t.target u <;> cases h2 : s.target u <;> simp_all

theorem findTarget_updTarget (s : State) (u : TargetId) {f : Target → Target} (hf : ∀ x, (f x).addr = x.addr) :
    (s.updTarget u f).findTarget = s.findTarget := by
  refine findTarget_congr fun v => ?_
  rw [target_updTarget]
  split
  · next e => subst e; cases s.target v <;> simp [hf]
  · rfl

/-- The record that an address finds after a change of one record that keeps its address. -/
theorem targetAt_updTarget (s : State) (u : TargetId) {f : Target → Target} (hf : ∀ x, (f x).addr = x.addr) (a : Byte) :
    (s.updTarget u f).targetAt a = if s.findTarget a = some u then (s.targetAt a).map f else s.targetAt a := by
  simp only [State.targetAt, findTarget_updTarget s u hf]
  cases s.findTarget a with
  | none => simp
  | some v =>
    simp only [Option.bind_some, target_updTarget, Option.some.injEq]
    split
    · next e => rw [e]
    · rfl

theorem holderAt_updTarget (s : State) (u : TargetId) {f : Target → Target} (hf : ∀ x, (f x).addr = x.addr)
    (hl : ∀ x, (f x).lock.map Hold.port = x.lock.map Hold.port) : (s.updTarget u f).holderAt = s.holderAt := by
  funext a
  simp only [State.holderAt, targetAt_updTarget s u hf]
  split
  · cases s.targetAt a <;> simp [hl]
  · rfl

/-- A change of a target that keeps address and holder, makes no probe due, and takes from a free lock nobody who waits. -/
theorem Quiet.updTarget (s : State) (u : TargetId) {f : Target → Target} (ha : ∀ x, (f x).addr = x.addr)
    (hl : ∀ x, (f x).lock.map Hold.port = x.lock.map Hold.port)
    (hw : ∀ x p, s.target u = some x → x.lock = none → (f x).awaits p = false → x.awaits p = false)
    (hp : ∀ x, x.probe = none → (f x).probe = none) : Quiet s (s.updTarget u f) :=
  have hh := holderAt_updTarget s u ha hl
  have hreq : (s.updTarget u f).request = s.request := request_of_slots (by simp)
  { list := list_of_lists (by simp)
    desc := fun _ n r _ h => ⟨r, by rw [hreq, h], rfl⟩
    queued := fun n r h hq => ⟨r, by rw [← hreq, h], hq, rfl⟩
    holder := hh
    waits := fun p a hfree hwait => by
      simp only [State.waitsAt, targetAt_updTarget s u ha] at hwait ⊢
      split at hwait
      · next hf =>
        cases hx : s.targetAt a with
        | none => rfl
        | some x =>
          have hxu : s.target u = some x := by simpa [State.targetAt, hf] using hx
          have hlock : x.lock = none := by simpa [State.holderAt, hx] using hfree
          exact hw x p hxu hlock (by simpa [hx] using hwait)
      · exact hwait
    probe := fun v h => by
      rw [probeItem_eq_none] at h ⊢
      intro x hx hlock
      rw [target_updTarget] at hx
      by_cases e : v = u
      · subst e
        rw [if_pos rfl, Option.map_eq_some_iff] at hx
        obtain ⟨y, hy, rfl⟩ := hx
        have hy' : y.lock = none := by simpa [hlock] using hl y
        exact hp y (h y hy hy')
      · exact h x (by simpa [e] using hx) hlock
    poll := fun e h => (congrFun (pollItem_of_entries (by simp) hh) e).trans h
    bus := by simp +contextual }

/-! ### The re-evaluation -/

theorem KeepsQueues.startWork (s : State) (w : Work) : KeepsQueues s (s.startWork w) := by
  cases w with
  | request n =>
    simp only [State.startWork]
    split
    · exact (Quiet.refl s).toKeepsQueues
    · next r _ =>
      have hq := Quiet.updRequest s n (f := fun r => { r with state := .active, attempts := 0 }) fun r => ⟨rfl, by simp⟩
      exact { hq.toKeepsQueues with }
  | poll e i k m => exact .of_fields (by simp) (by simp [State.startWork]) (by simp [State.startWork])
  | probe u a m =>
    have hq := Quiet.updTarget s u (f := fun x => { x with probe := none }) (fun _ => rfl) (fun _ => rfl)
      (fun _ _ _ _ h => h) (fun _ _ => rfl)
    exact { hq.toKeepsQueues with }

/-- Work that is offered takes the engine (R30). -/
theorem engine_startWork {x : Participant} {w : Work} (h : s.candidate x = some w) (b : Pointers) :
    ∃ f, (State.startWork { s with pointers := b } w).engine = .transfer f := by
  cases w with
  | poll e i k m => exact ⟨_, rfl⟩
  | probe u a m => exact ⟨_, rfl⟩
  | request n =>
    cases x with
    | maintenance => exact absurd rfl (maintenanceCandidate_maint s h n)
    | host p =>
      simp only [State.candidate, Option.map_eq_some_iff, Work.request.injEq, exists_eq_right] at h
      obtain ⟨r, hr, -⟩ := headCandidate_queued s h
      have hr' : State.request { s with pointers := b } n = some r := hr
      exact ⟨_, by simp only [State.startWork, hr']; rfl⟩

/-- A selection leaves nothing that a selection could start (R29). -/
theorem settled_select (h : ∀ p, s.cleared p) : s.select.settled := by
  simp only [State.select]
  split
  · split
    · next hn => exact ⟨h, fun _ _ => candidate_of_no_choice hn⟩
    · next c x hc =>
      split
      · next hn => exact absurd hn (candidate_of_choice hc)
      · next w hw =>
        have hk : KeepsQueues s { s with pointers := s.pointers.set c x } := .of_fields rfl rfl rfl
        obtain ⟨f, hf⟩ := engine_startWork hw (s.pointers.set c x)
        exact ⟨fun p => (KeepsQueues.startWork _ w).cleared (hk.cleared (h p)), fun hi => by rw [hf] at hi; cases hi⟩
  · next hc => exact ⟨h, fun hi hf => absurd (by simp [State.canSelect, hi, hf]) hc⟩

/-- The re-evaluation settles every state that meets the law of the request lists (R29, R36). -/
theorem settled_settle (h : s.listLaw) : s.settle.settled := settled_select (notLockedAll_cleared h)

end Sys2Proof.Machine

/-! ## The law of the request lists through the blocks

What the blocks do before the re-evaluation of an event keeps the law of the request lists. -/

namespace Sys2Proof.Machine

open Sys2Proof

variable {s : State}

theorem listLaw_endSlot (h : s.listLaw) (p : Port) (n : SlotId) : (s.endSlot p n).listLaw := by
  simp only [State.endSlot]
  split
  · exact h
  · next r hr =>
    split
    · next ho =>
      split
      · exact listLaw_freeSlotOf h n
      · exact listLaw_freeSlotOf h n
      · refine listLaw_of_drop (n := n) h (fun q => ?_) fun m hm => by simp [hm]
        rw [list_updRequest, list_unlist, ← filter_owner_eq h hr q,
          eq_of_beq ho]
        by_cases e : q = p <;> simp [e]
    · exact h

theorem listLaw_endSlots (h : s.listLaw) (p : Port) : (s.endSlots p).listLaw :=
  List.foldlRecOn _ _ h fun _ ha n _ => listLaw_endSlot ha p n

theorem listLaw_release (h : s.listLaw) (t : TargetId) (p : Port) (c : Option LockEnd) : (s.release t p c).listLaw := by
  simp only [State.release]
  split
  · exact h
  · next x _ =>
    have hq := listLaw_completeQueued (s := s.updTarget t fun x => { x with lock := none })
      (listLaw_of_fields h (by simp) (by simp)) p (fun r => r.desc.target == x.addr && r.desc.underLock) .lockLost
    split
    · exact listLaw_of_fields hq (by simp) (by simp)
    · exact listLaw_of_fields hq (by simp) (by simp)

theorem listLaw_endLocks (h : s.listLaw) (p : Port) : (s.endLocks p).listLaw := by
  refine List.foldlRecOn _ _ h fun a ha t _ => ?_
  simp only [State.endLock]
  split
  · exact ha
  · split
    · exact listLaw_release ha t p none
    · exact listLaw_of_fields ha (by simp) (by simp)

theorem listLaw_endSession (h : s.listLaw) (p : Port) : (s.endSession p).listLaw :=
  listLaw_of_fields (listLaw_endLocks (listLaw_endSlots h p) p) (by simp [State.endSession]) (by simp [State.endSession])

theorem listLaw_updTarget (h : s.listLaw) (t : TargetId) (f : Target → Target) : (s.updTarget t f).listLaw :=
  listLaw_of_fields h (by simp) (by simp)

theorem listLaw_quarantineOnset (h : s.listLaw) (t : TargetId) : (s.quarantineOnset t).listLaw := by
  simp only [State.quarantineOnset]
  split
  · exact h
  · next x _ =>
    have hm := listLaw_updTarget h t fun x => { x with health := .quarantined }
    exact listLaw_of_fields (listLaw_notLockedAll (listLaw_completeQueuedAll hm
      (fun r => r.desc.target == x.addr && r.desc.kind != .probe) .targetQuarantined)) (by simp) (by simp)

theorem listLaw_quarantineEnd (h : s.listLaw) (t : TargetId) : (s.quarantineEnd t).listLaw := by
  simp only [State.quarantineEnd]
  split
  · exact h
  · exact listLaw_of_fields (listLaw_notLockedAll (listLaw_updTarget h t fun x =>
      { x with health := .online, failures := 0, probeTimer := none, probeDue := none, probe := none }))
      (by simp) (by simp)

theorem listLaw_countFailure (h : s.listLaw) (t : TargetId) : (s.countFailure t).listLaw := by
  simp only [State.countFailure]
  split
  · exact h
  · next x _ =>
    have hc := listLaw_updTarget h t fun y => { y with failures := min (x.failures + 1) Config.countMax }
    split
    · exact hc
    · split
      · exact listLaw_quarantineOnset hc t
      · exact listLaw_of_fields (listLaw_notLockedAll (listLaw_updTarget hc t fun x => { x with health := .suspect }))
          (by simp) (by simp)
    · split
      · exact listLaw_quarantineOnset hc t
      · exact hc

theorem listLaw_countSuccess (h : s.listLaw) (t : TargetId) : (s.countSuccess t).listLaw := by
  simp only [State.countSuccess]
  split
  · exact h
  · split
    · exact listLaw_quarantineEnd h t
    · exact listLaw_updTarget h t _
    · exact listLaw_updTarget h t _

theorem listLaw_account (h : s.listLaw) (a : Byte) (o : TransferOutcome) (b : Bool) : (s.account a o b).listLaw := by
  simp only [State.account]
  split
  · exact h
  · split
    · exact listLaw_countSuccess h _
    · exact listLaw_countFailure h _
    · exact h

theorem listLaw_deliver (h : s.listLaw) (w : Work) (r : Report) : (s.deliver w r).listLaw := by
  cases w with
  | request n =>
    simp only [State.deliver]
    split
    · exact h
    · exact listLaw_account (listLaw_completeSlot h n _) _ _ _
  | poll e i k m => exact listLaw_account (listLaw_of_fields h (by simp) (by simp)) _ _ _
  | probe t a m => exact listLaw_of_fields (listLaw_account h a r.outcome r.addressed) (by simp [State.deliver]) (by simp [State.deliver])

theorem listLaw_loseRequest (h : s.listLaw) (n : SlotId) (b : Nat) (a : Bool) : (s.loseRequest n b a).listLaw := by
  simp only [State.loseRequest]
  split
  · exact h
  · have hc : (s.updRequest n fun r => { r with losses := r.losses + 1 }).listLaw := listLaw_updRequest h n fun _ => rfl
    split
    · exact listLaw_deliver hc _ _
    · split
      · exact listLaw_deliver hc _ _
      · split
        · exact listLaw_completeSlot hc n _
        · split
          · refine listLaw_updRequest hc n fun r => ?_
            simp only [Request.aged]
            split <;> rfl
          · exact listLaw_deliver hc _ _

theorem listLaw_redeclare (h : s.listLaw) (t : TargetId) (x : Target) (d : Declaration) : (s.redeclare t x d).listLaw := by
  simp only [State.redeclare]
  split
  · exact listLaw_quarantineOnset (listLaw_updTarget h t _) t
  · exact listLaw_updTarget h t _

/-! ### Events that end in a re-evaluation -/

theorem settled_finishTransfer (h : s.listLaw) (w : Work) (r : Report) : (s.finishTransfer w r).settled :=
  settled_settle (listLaw_deliver (listLaw_of_fields h (by simp) (by simp)) w r)

theorem settled_loseTransfer (h : s.listLaw) (w : Work) (l : Lines) (b : Nat) (a : Bool) :
    (s.loseTransfer w l b a).settled := by
  have hl : ((s.setEngine .idle).reachForeign l).listLaw := listLaw_of_fields h (by simp) (by simp)
  refine settled_settle ?_
  cases w with
  | request n => exact listLaw_loseRequest hl n b a
  | poll e i k m =>
    dsimp only
    split
    · exact listLaw_of_fields hl (by simp) (by simp)
    · exact listLaw_deliver hl _ _
  | probe t x m =>
    dsimp only
    split
    · exact listLaw_of_fields hl (by simp) (by simp)
    · exact listLaw_deliver hl _ _

/-! ### What completes every QUEUED slot, and what empties the device -/

/-- With no QUEUED slot in a list and the bus not FREE, a state is settled. -/
theorem settled_of_no_queued (h : ∀ p, ∀ n ∈ s.list p, ∀ r, s.request n = some r → r.state ≠ .queued)
    (hm : s.monitor.state ≠ .free) : s.settled := by
  refine ⟨fun p n hn => ?_, fun _ hf => absurd hf hm⟩
  by_contra hd
  rw [Bool.not_eq_false] at hd
  obtain ⟨r, hr, hq, -⟩ := notLockedDue_iff.1 hd
  exact h p n hn r hr hq

end Sys2Proof.Machine

/-! ## Every command and event leaves the device settled -/

namespace Sys2Proof.Machine

open Sys2Proof

variable {s t : State}

/-! ### Quiet operations -/

theorem Quiet.setMonitor (s : State) {m : Monitor} (h : m.state = .free → s.monitor.state = .free) :
    Quiet s (s.setMonitor m) :=
  .of_fields rfl rfl rfl rfl fun hi hf => ⟨hi, h hf⟩

theorem Quiet.respond (s : State) (p : Port) (r : Reply) : Quiet s (s.respond p r) :=
  .of_all_fields (by simp) (by simp) (by simp) (by simp) (by simp) (by simp)

theorem Quiet.updPort (s : State) (p : Port) (f : HostPort → HostPort) : Quiet s (s.updPort p f) :=
  .of_all_fields rfl rfl rfl rfl rfl rfl

theorem Quiet.setNoticePort (s : State) (p : Port) (v : NoticePort) : Quiet s (s.setNoticePort p v) :=
  .of_all_fields rfl rfl rfl rfl rfl rfl

theorem Quiet.offerTo (s : State) (n : Notice) (ps : List Port) : Quiet s (s.offerTo n ps) :=
  .of_all_fields (by simp) (by simp) (by simp) (by simp) (by simp) (by simp)

/-- While a transfer or a recovery is on the engine nothing can be selected. -/
theorem Quiet.setEngine_busy {g : Engine} (h : Quiet s t) (hg : g ≠ .idle) : Quiet s (t.setEngine g) :=
  h.trans (.of_fields rfl rfl rfl rfl fun hi => absurd hi hg)

theorem Quiet.beginAttempt (s : State) : Quiet s s.beginAttempt :=
  (Quiet.setMonitor s (by simp)).setEngine_busy (by simp)

theorem Quiet.beginSequence (s : State) : Quiet s s.beginSequence :=
  (Quiet.setMonitor s (m := { s.monitor with failed := 0 }) id).trans (.beginAttempt _)

theorem monitor_reachForeign (s : State) (l : Lines) : (s.reachForeign l).monitor.state = .foreign := by
  simp only [State.reachForeign, State.clearFault]
  split <;> simp

theorem Quiet.reachForeign (s : State) (g : Engine) (l : Lines) : Quiet s ((s.setEngine g).reachForeign l) :=
  .of_fields (by simp) (by simp) (by simp) (by simp) fun _ hf => by simp [monitor_reachForeign] at hf

theorem Quiet.goStale (s : State) (e : EntryId) (u : MirrorUse) : Quiet s (s.goStale e u) :=
  (Quiet.updEntry s e (f := fun u => { u with state := .stale, staleTimer := none }) fun _ => ⟨rfl, id⟩).trans
    (.offerTo _ _ _)

theorem Quiet.recheckAllStale (s : State) : Quiet s s.recheckAllStale := by
  refine .foldl (fun a e => ?_) _
  simp only [State.recheckStale]
  split
  · exact .refl a
  · split
    · split
      · exact .refl a
      · split
        · exact .goStale a e _
        · exact .updEntry a e fun _ => ⟨rfl, id⟩
    · exact .refl a

theorem Quiet.updPending (s : State) (e : EntryId) (f : Maint → Maint) :
    Quiet s (s.updEntry e fun u => { u with pending := u.pending.map f }) :=
  .updEntry s e fun _ => ⟨rfl, fun h => by simp [h]⟩

theorem Quiet.updProbe (s : State) (t : TargetId) (f : Maint → Maint) :
    Quiet s (s.updTarget t fun x => { x with probe := x.probe.map f }) :=
  .updTarget s t (fun _ => rfl) (fun _ => rfl) (fun _ _ _ _ h => h) fun _ h => by simp [h]

/-- A promotion changes class and class mark alone (R40). -/
theorem Quiet.ageOne (s : State) (w : Waiting) : Quiet s (s.ageOne w) := by
  cases w with
  | slot n =>
    refine .updRequest s n fun r => ?_
    simp only [Request.agedQueued, Request.aged]
    split
    · split <;> exact ⟨rfl, id⟩
    · exact ⟨rfl, id⟩
  | poll e => exact .updPending s e _
  | probe t => exact .updProbe s t _

theorem Quiet.ageAll (s : State) : Quiet s s.ageAll :=
  ((Quiet.foldl (fun a n => .ageOne a (.slot n)) _).trans (.foldl (fun a e => .ageOne a (.poll e)) _)).trans
    (.foldl (fun a u => .ageOne a (.probe u)) _)

theorem Quiet.reclassAll (s : State) : Quiet s s.reclassAll :=
  (Quiet.foldl (fun a e => .updPending a e _) _).trans (.foldl (fun a u => .updProbe a u _) _)

/-- A lease restarted for the port that holds the lock (R97). -/
theorem Quiet.grant_holder {u : TargetId} {x : Target} {h : Hold} (hx : s.target u = some x) (hl : x.lock = some h)
    (n : Nat) : Quiet s (s.grant u h.port n) := by
  have he : s.grant u h.port n
      = s.updTarget u fun y => { y with lock := y.lock.map fun k => ⟨k.port, s.timer (s.clampLease n)⟩ } := by
    simp [State.grant, State.updTarget, hx, hl]
  rw [he]
  exact .updTarget s u (fun _ => rfl) (fun y => by cases y.lock <;> rfl) (fun _ _ _ _ h => h) fun _ h => h

/-- A DONE slot stands in no list, so that freeing it bears on no queue (R6, R20). -/
theorem Quiet.freeSlotOf_done (h : s.poolLaw) {n : SlotId} {r : Request} {res : Result} (hr : s.request n = some r)
    (hd : r.state = .done res) : Quiet s (s.freeSlotOf n) := by
  have hlist := h.2.1
  have hn : ∀ q, n ∉ s.list q := fun q hq => by
    obtain ⟨r', hr', -, hlisted⟩ := (hlist q n).1 hq
    rw [hr] at hr'
    cases hr'
    simp [Request.listed, hd] at hlisted
  have ht : (s.freeSlotOf n).targets = s.targets := by simp
  have hh := holderAt_of_targets ht
  refine { list := ?_, desc := ?_, queued := ?_, holder := hh, waits := ?_, probe := ?_, poll := ?_, bus := ?_ }
  · funext q
    rw [list_freeSlotOf s hr, filter_ne_of_not_mem (hn q), ite_self]
  · intro p m r' hm hr'
    have hne : m ≠ n := fun e => hn p (e ▸ hm)
    exact ⟨r', by simp [hne, hr'], rfl⟩
  · intro m r' hr' hq
    rw [request_freeSlotOf] at hr'
    by_cases e : m = n
    · simp [e] at hr'
    · exact ⟨r', by simpa [e] using hr', hq, rfl⟩
  · exact fun p a _ hw => by rwa [waitsAt_of_targets ht] at hw
  · exact fun u hu => (congrFun (probeItem_of_targets ht) u).trans hu
  · exact fun e he => (congrFun (pollItem_of_entries (by simp) hh) e).trans he
  · simp +contextual

/-- Other addresses find what they found, when one target entry changes. -/
theorem targetAt_setTarget_of_ne {u : TargetId} {v : Option Target} {a : Byte}
    (hs : ∀ x, s.target u = some x → x.addr ≠ a) (hv : ∀ x, v = some x → x.addr ≠ a) :
    (s.setTarget u v).targetAt a = s.targetAt a := by
  have hf : (s.setTarget u v).findTarget a = s.findTarget a := by
    simp only [State.findTarget]
    congr 1
    funext w
    rw [target_setTarget]
    split
    · next e =>
      subst e
      cases hx : s.target w <;> cases hy : v <;> simp_all
    · rfl
  simp only [State.targetAt, hf]
  cases hw : s.findTarget a with
  | none => rfl
  | some w =>
    have hne : w ≠ u := by
      rintro rfl
      have := List.find?_some hw
      cases hx : s.target w with
      | none => simp [hx] at this
      | some x => exact hs x hx (by simpa [hx] using this)
    simp [hne]

/-- A target entry without lock, waiters and probe comes or goes quietly (R76, R80): at its address nothing was locked or
waited for before, and nothing is after. -/
theorem Quiet.setTarget {u : TargetId} {v : Option Target} {a : Byte} (hs : ∀ x, s.target u = some x → x.addr = a)
    (hv : ∀ x, v = some x → x.addr = a ∧ x.probe = none)
    (hbefore : ∀ x, s.targetAt a = some x → x.lock = none ∧ x.waiters = [])
    (hafter : ∀ x, (s.setTarget u v).targetAt a = some x → x.lock = none ∧ x.waiters = []) :
    Quiet s (s.setTarget u v) := by
  have hother : ∀ b, b ≠ a → (s.setTarget u v).targetAt b = s.targetAt b := fun b hb =>
    targetAt_setTarget_of_ne (fun x hx e => hb (e ▸ hs x hx)) fun x hx e => hb (e ▸ (hv x hx).1)
  have hfree : ∀ z : State, (∀ x, z.targetAt a = some x → x.lock = none ∧ x.waiters = []) →
      z.holderAt a = none ∧ ∀ p, z.waitsAt p a = false := fun z hz => by
    simp only [State.holderAt, State.waitsAt]
    cases hx : z.targetAt a with
    | none => simp
    | some x => simp [hz x hx, Target.awaits]
  have hh : (s.setTarget u v).holderAt = s.holderAt := by
    funext b
    by_cases hb : b = a
    · rw [hb, (hfree _ hbefore).1, (hfree _ hafter).1]
    · simp only [State.holderAt, hother b hb]
  refine { list := list_of_lists (by simp), desc := ?_, queued := ?_, holder := hh, waits := ?_, probe := ?_, poll := ?_,
           bus := ?_ }
  · exact fun _ n r _ hr => ⟨r, by rw [request_setTarget, hr], rfl⟩
  · exact fun n r hr hq => ⟨r, by rw [← hr, request_setTarget], hq, rfl⟩
  · intro p b _ hw
    by_cases hb : b = a
    · rw [hb, (hfree _ hbefore).2]
    · rw [← hw]
      simp only [State.waitsAt, hother b hb]
  · intro w hw
    rw [probeItem_eq_none] at hw ⊢
    intro x hx hl
    rw [target_setTarget] at hx
    split at hx
    · exact (hv x hx).2
    · exact hw x hx hl
  · exact fun e he => (congrFun (pollItem_of_entries (by simp) hh) e).trans he
  · simp +contextual

/-! ### The commands -/

/-- An address that finds nothing is nobody's. -/
theorem addr_ne_of_lookup_none {a : Byte} (h : s.lookup a = none) (u : TargetId) (x : Target)
    (hx : s.target u = some x) : x.addr ≠ a := by
  have hf := findTarget_of_targetAt_none (targetAt_eq_none.2 h)
  have := finRange_find?_eq_none.1 hf u
  simpa [hx] using this

theorem settled_declareBody (hs : s.settled) (hl : s.listLaw) (d : Declaration) : (declareBody d s).1.settled := by
  simp only [declareBody]
  split
  · split
    · exact hs
    · exact settled_settle (listLaw_redeclare hl _ _ _)
  · next hn =>
    split
    · exact hs
    · next u hu =>
      have hfree : s.target u = none := (freeTarget_eq_some.1 hu).1
      refine settled_of_quiet (.setTarget (a := d.addr) (by simp [hfree]) ?_ ?_ ?_) hs
      · rintro x ⟨⟩
        exact ⟨rfl, rfl⟩
      · simp [targetAt_eq_none.2 hn]
      · intro x hx
        obtain ⟨w, hw⟩ := targetAt_eq_some.1 hx
        obtain ⟨-, hx, ha, -⟩ := lookup_eq_some hw
        rw [target_setTarget] at hx
        split at hx
        · cases hx
          exact ⟨rfl, rfl⟩
        · exact absurd ha (addr_ne_of_lookup_none hn w x hx)

theorem settled_removeBody (hs : s.settled) (ht : s.tableLaw) (a : Byte) : (removeBody a s).1.settled := by
  simp only [removeBody]
  split
  · exact hs
  · next u x hx =>
    obtain ⟨-, hux, ha, hat⟩ := lookup_eq_some hx
    split
    · exact hs
    · next hu =>
      have hfree : x.lock = none ∧ x.waiters = [] := by
        simp only [State.targetInUse, Bool.or_eq_true, not_or] at hu
        obtain ⟨⟨-, hlock⟩, hwait⟩ := hu
        exact ⟨by simpa using hlock, by simpa using hwait⟩
      refine settled_of_quiet (.setTarget (a := a) ?_ (by simp) ?_ ?_) hs
      · intro y hy
        rw [hux] at hy
        cases hy
        exact ha
      · intro y hy
        rw [hat] at hy
        cases hy
        exact hfree
      · intro y hy
        obtain ⟨w, hw⟩ := targetAt_eq_some.1 hy
        obtain ⟨-, hy, hya, -⟩ := lookup_eq_some hw
        rw [target_setTarget] at hy
        split at hy
        · cases hy
        · next hne => exact absurd (ht.1 w u y x hy hux (hya.trans ha.symm)) hne

theorem settled_clearBody (hs : s.settled) (hl : s.listLaw) (a : Byte) : (clearBody a s).1.settled := by
  simp only [clearBody]
  split
  · exact hs
  · split
    · exact settled_settle (listLaw_quarantineEnd hl _)
    · exact settled_of_quiet (.updTarget s _ (fun _ => rfl) (fun _ => rfl) (fun _ _ _ _ h => h) fun _ h => h) hs
    · exact hs

theorem settled_lockBody (hs : s.settled) (hl : s.listLaw) (p : Port) (a : Byte) (n : Nat) (w : Bool) :
    (lockBody p a n w s).1.settled := by
  simp only [lockBody]
  split
  · exact hs
  · next u x _ =>
    split
    · exact hs
    · split
      · exact hs
      · split
        · exact hs
        · split
          · exact settled_settle (listLaw_updTarget hl u _)
          · simp only [State.joinOrReport]
            split
            · refine settled_of_quiet (.updTarget s u (fun _ => rfl) (fun _ => rfl) (fun y q _ _ hq => ?_) fun _ h => h) hs
              simp only [Target.awaits, List.any_append, Bool.or_eq_false_iff] at hq
              exact hq.1
            · exact hs

theorem settled_renewBody (hs : s.settled) (p : Port) (a : Byte) : (renewBody p a s).1.settled := by
  simp only [renewBody]
  split
  · exact hs
  · next hx =>
    obtain ⟨-, hx, -⟩ := lookup_eq_some hx
    split
    · exact hs
    · next h hlock =>
      split
      · next hp => exact settled_of_quiet (hp ▸ .grant_holder hx hlock _) hs
      · exact hs

/-- A port that leaves a wait list leaves one whose lock is held, for without a holder nobody waits (R93). -/
theorem Quiet.leaveWait (h : s.lockLaw) (u : TargetId) (p : Port) : Quiet s (s.leaveWait u p) := by
  refine .updTarget s u (fun _ => rfl) (fun _ => rfl) (fun x q hx hl _ => ?_) fun _ h => h
  obtain ⟨-, -, hempty⟩ := h u x hx
  simp [Target.awaits, hempty hl]

theorem settled_unlockBody (hs : s.settled) (hl : s.listLaw) (hk : s.lockLaw) (p : Port) (a : Byte) :
    (unlockBody p a s).1.settled := by
  simp only [unlockBody]
  split
  · exact hs
  · split
    · exact settled_settle (listLaw_release hl _ _ _)
    · split
      · exact settled_of_quiet (.leaveWait hk _ _) hs
      · exact hs

theorem settled_forceUnlockBody (hs : s.settled) (hl : s.listLaw) (a : Byte) : (forceUnlockBody a s).1.settled := by
  simp only [forceUnlockBody]
  split
  · exact hs
  · split
    · exact hs
    · exact settled_settle (listLaw_release hl _ _ _)

theorem settled_mirrorDefineBody (hs : s.settled) (hl : s.listLaw) (p : Port) (k : Key) (sp : Sponsor) :
    (mirrorDefineBody p k sp s).1.settled := by
  simp only [mirrorDefineBody]
  split
  · exact hs
  · split
    · exact hs
    · split
      · exact settled_settle (listLaw_of_fields hl (by simp) (by simp))
      · split
        · exact hs
        · exact settled_settle (listLaw_of_fields hl (by simp) (by simp))

theorem settled_mirrorDropBody (hs : s.settled) (hl : s.listLaw) (p : Port) (e : EntryId) :
    (mirrorDropBody p e s).1.settled := by
  simp only [mirrorDropBody]
  split
  · exact hs
  · split
    · exact hs
    · exact settled_settle (listLaw_of_fields hl (by simp) (by simp))

theorem settled_submitBody (hs : s.settled) (hl : s.listLaw) (p : Port) (d : Descriptor) :
    (submitBody p d s).1.settled := by
  simp only [submitBody]
  split
  · exact hs
  · split
    · exact hs
    · next n hn => exact settled_settle (listLaw_allocate hl p (freeSlot_eq_some.1 hn).1 d)

/-- A ticket names a slot that holds the request it answers (R9). -/
theorem request_of_ticketSlot {p : Port} {ticket : Half} {n : SlotId} {r : Request}
    (h : s.ticketSlot p ticket = some (n, r)) : s.request n = some r := by
  simp only [State.ticketSlot] at h
  split at h
  · split at h
    · cases h
    · next hr =>
      split at h
      · cases h
        exact hr
      · cases h
  · cases h

theorem settled_cancelBody (hs : s.settled) (hl : s.listLaw) (p : Port) (ticket : Half) :
    (cancelBody p ticket s).1.settled := by
  simp only [cancelBody]
  split
  · exact hs
  · split
    · exact settled_settle (listLaw_freeSlotOf hl _)
    · exact settled_of_quiet (.updRequest s _ fun _ => ⟨rfl, id⟩) hs
    · exact hs

theorem settled_fetchBody (hs : s.settled) (hp : s.poolLaw) (p : Port) (ticket : Half) (keep : Bool) :
    (fetchBody p ticket keep s).1.settled := by
  simp only [fetchBody]
  split
  · exact hs
  · next n r hn =>
    split
    · next hd =>
      dsimp only
      split
      · exact hs
      · exact settled_of_quiet (.freeSlotOf_done hp (request_of_ticketSlot hn) hd) hs
    · exact hs
    · exact hs

theorem settled_readNoticeBody (hs : s.settled) (p : Port) : (readNoticeBody p s).1.settled := by
  simp only [readNoticeBody]
  split
  · exact hs
  · exact settled_of_quiet (.setNoticePort s p _) hs

theorem settled_attachBody (hs : s.settled) (hl : s.listLaw) (p : Port) : (attachBody p s).1.settled := by
  simp only [attachBody]
  split
  · dsimp only
    split
    · exact settled_settle (listLaw_of_fields (listLaw_endSession hl p) (by simp) (by simp))
    · exact settled_of_quiet (.updPort s p _) hs
  · exact hs

theorem settled_endSession_settle (hl : s.listLaw) (p : Port) : (s.endSession p).settle.settled :=
  settled_settle (listLaw_endSession hl p)

theorem settled_hangExpires (hs : s.settled) (hl : s.listLaw) : s.hangExpires.settled := by
  have hq : Quiet s (s.setMonitor { s.monitor with hang := none }) := .setMonitor s id
  have hstop := settled_of_quiet hq hs
  simp only [State.hangExpires]
  split
  · split
    · exact hstop
    · exact settled_of_quiet (hq.trans (.beginSequence _)) hs
  · split
    · exact settled_settle (listLaw_of_fields hl (by simp) (by simp))
    · exact settled_of_quiet (hq.trans (.beginSequence _)) hs
  · split
    · exact settled_of_quiet (hq.trans (.beginAttempt _)) hs
    · exact hstop
  all_goals exact hstop

theorem settled_retimeHang (hs : s.settled) (hl : s.listLaw) : s.retimeHang.settled := by
  simp only [State.retimeHang]
  split
  · exact hs
  · next tm _ =>
    have hr := settled_of_quiet
      (.setMonitor s (m := { s.monitor with hang := some ⟨tm.setAt, s.params.hangLimit⟩ }) id) hs
    split
    · exact settled_hangExpires hr (listLaw_of_fields hl rfl rfl)
    · exact hr

theorem settled_setParameterBody (hs : s.settled) (hl : s.listLaw) (i : Byte) (k : Param) (ps : Params) :
    (setParameterBody i k ps s).1.settled := by
  simp only [setParameterBody]
  split
  · exact hs
  · have hq : Quiet s { s with params := ps } := .of_all_fields rfl rfl rfl rfl rfl rfl
    cases k <;> simp only [State.actOn]
    case agingLimit => exact settled_of_quiet (hq.trans (.ageAll _)) hs
    case maintenanceClass => exact settled_of_quiet (hq.trans (.reclassAll _)) hs
    case staleMultiple => exact settled_of_quiet (hq.trans (.recheckAllStale _)) hs
    case hangLimit => exact settled_retimeHang (settled_of_quiet hq hs) (listLaw_of_fields hl rfl rfl)
    all_goals exact settled_of_quiet hq hs

theorem settled_busResetBody (hs : s.settled) : (busResetBody s).1.settled := by
  simp only [busResetBody]
  split
  · exact settled_of_quiet (.beginAttempt s) hs
  · exact hs

/-- A command that its body leaves settled, or that does not reach its body, leaves the device settled. -/
theorem settled_command {α : Type} {p : Port} {need : Standing} {args : Option α} {body : α → State → State × Reply}
    (hs : s.settled) (hb : ∀ a, (body a s).1.settled) : (s.command p need args body).settled := by
  simp only [State.command]
  split
  · split
    · exact settled_of_quiet (.respond s p _) hs
    · split
      · exact settled_of_quiet (.respond s p _) hs
      · exact settled_of_quiet (.respond _ p _) (hb _)
  · exact hs

end Sys2Proof.Machine

/-! ## No idling while work waits (O48) -/

namespace Sys2Proof.Machine

open Sys2Proof

variable {s t : State}

/-! ### Completing every QUEUED slot -/

/-- No list gains a slot by a completion. -/
theorem list_completeSlot_subset (s : State) (n : SlotId) (x : Result) (q : Port) :
    (s.completeSlot n x).list q ⊆ s.list q := by
  cases hr : s.request n with
  | none => simp [State.completeSlot, hr]
  | some r =>
    rw [list_completeSlot hr]
    split
    · exact fun m hm => (List.mem_filter.1 hm).1
    · exact List.Subset.refl _

theorem list_completeQueued_subset (s : State) (p : Port) (c : Request → Bool) (o : TransferOutcome) (q : Port) :
    (s.completeQueued p c o).list q ⊆ s.list q :=
  List.foldlRecOn (motive := fun a : State => a.list q ⊆ s.list q) _ _ (List.Subset.refl _) fun a ha n _ _ hm =>
    ha (list_completeSlot_subset a n _ q hm)

/-- No listed slot of a port is QUEUED. -/
def State.noneQueued (s : State) (p : Port) : Prop := ∀ n ∈ s.list p, ∀ r, s.request n = some r → r.state ≠ .queued

/-- A completed slot is DONE, if it still holds a request (R13). -/
theorem Request.completed_not_queued {o : Option Request} {x : Result} {r : Request}
    (h : (o.bind fun r => r.completed x) = some r) : r.state ≠ .queued := by
  obtain ⟨r', -, hr'⟩ := Option.bind_eq_some_iff.1 h
  simp only [Request.completed] at hr'
  split at hr' <;> cases hr'
  simp

/-- A completion of everything QUEUED on a port leaves nothing QUEUED on it, and brings nothing back on the others. -/
theorem noneQueued_completeQueued {p q : Port} (o : TransferOutcome) (h : q = p ∨ s.noneQueued q) :
    (s.completeQueued p (fun _ => true) o).noneQueued q := by
  intro n hn r hr
  have hmem := list_completeQueued_subset s p _ o q hn
  rw [request_completeQueued] at hr
  split at hr
  · exact Request.completed_not_queued hr
  · next hnot =>
    rcases h with rfl | h
    · exact fun hq => hnot (List.mem_filter.2 ⟨hmem, by simp [hr, hq]⟩)
    · exact h n hmem r hr

theorem noneQueued_completeQueuedAll (s : State) (o : TransferOutcome) (q : Port) :
    (s.completeQueuedAll (fun _ => true) o).noneQueued q := by
  have pass : ∀ (l : List Port) (a : State), q ∈ l ∨ a.noneQueued q →
      (l.foldl (fun a p => a.completeQueued p (fun _ => true) o) a).noneQueued q := by
    intro l
    induction l with
    | nil => simp
    | cons p l ih =>
      intro a h
      refine ih _ ?_
      rcases h with h | h
      · rcases List.mem_cons.1 h with rfl | h
        · exact .inr (noneQueued_completeQueued o (.inl rfl))
        · exact .inl h
      · exact .inr (noneQueued_completeQueued o (.inr h))
  exact pass Port.all s (.inl (Port.mem_all q))

/-- In FAULTED nothing is QUEUED (R130). -/
theorem settled_enterFaulted (s : State) : s.enterFaulted.settled := by
  simp only [State.enterFaulted]
  generalize hw : (s.setMonitor _).setEngine .idle = w
  have hm : w.monitor.state = .faulted := by rw [← hw]; rfl
  have hdone : (w.completeQueuedAll (fun _ => true) .busFault).settled :=
    settled_of_no_queued (fun p => noneQueued_completeQueuedAll w .busFault p) (by simp [hm])
  split
  · exact hdone
  · exact settled_of_quiet (.offerTo _ _ _) (settled_of_quiet (.setMonitor _ id) hdone)

/-! ### The events -/

/-- A device whose blocks stand at their reset values is settled. -/
theorem settled_resetBlocks (s : State) (l : Lines) (sel : Port → Bool) : (s.resetBlocks l sel).settled := by
  refine settled_of_no_queued (fun p n hn => ?_) (by simp [State.resetBlocks, Monitor.atReset])
  simp [State.resetBlocks, State.list] at hn

theorem Quiet.readLines (s : State) : Quiet s s.readLines := by
  simp only [State.readLines]
  split <;> exact .setMonitor s id

theorem settled_enterReset (s : State) (h : ResetHold) : (s.enterReset h).settled :=
  settled_of_quiet (.of_all_fields rfl rfl rfl rfl rfl rfl) (settled_resetBlocks s linesHigh fun _ => false)

theorem settled_leaveReset (s : State) (straps : BitVec 2) (c : ResetCause) (l : Lines) (sel : PortSet) :
    (s.leaveReset straps c l sel).settled :=
  settled_of_quiet ((Quiet.readLines _).trans (.of_all_fields rfl rfl rfl rfl rfl rfl)) (settled_resetBlocks s l sel.has)

theorem settled_takeResetPart (s : State) (p : Port) (l : Lines) : (s.takeResetPart p l).settled :=
  settled_of_quiet ((Quiet.readLines _).trans (.of_all_fields rfl rfl rfl rfl rfl rfl))
    (settled_resetBlocks s l fun q => q != p && (s.port q).selected)

theorem settled_pollTimerExpires (hs : s.settled) (hl : s.listLaw) (e : EntryId) (u : MirrorUse) (tm : Timer) :
    (s.pollTimerExpires e u tm).settled := by
  have hq : Quiet s (s.updEntry e fun u => { u with dueTimer := none }) := .updEntry s e fun _ => ⟨rfl, id⟩
  simp only [State.pollTimerExpires]
  split
  · exact settled_of_quiet hq hs
  · split
    · exact settled_of_quiet (hq.trans (.updEntry _ e fun _ => ⟨rfl, id⟩)) hs
    · exact settled_settle (listLaw_of_fields hl (by simp) (by simp))

/-- The transfer on the bus is on the engine. -/
theorem engine_of_onBus {f : Transfer} (h : s.onBus = some f) : s.engine = .transfer f := by
  simp only [State.onBus] at h
  split at h
  · next he =>
    split at h <;> cases h
    exact he
  · cases h

theorem Quiet.countAttempt (s : State) (m : Monitor) (f : Transfer) (hm : m.state ≠ .free) :
    Quiet s ((s.setMonitor m).countAttempt f) := by
  have hq : Quiet s (s.setMonitor m) := .setMonitor s fun h => absurd h hm
  simp only [State.countAttempt]
  split
  · next n _ =>
    have hr := Quiet.updRequest (s.setMonitor m) n (f := fun r => { r with attempts := r.attempts + 1 }) fun _ => ⟨rfl, id⟩
    exact (hq.trans hr).setEngine_busy (by simp)
  · exact hq.setEngine_busy (by simp)

theorem settled_nackAddress (hs : s.settled) (hl : s.listLaw) {f : Transfer} (he : s.engine = .transfer f) :
    (s.nackAddress f).settled := by
  simp only [State.nackAddress]
  split
  · refine settled_of_quiet (.of_fields (by simp) (by simp) (by simp) (by simp) fun hi => ?_) hs
    simp [he] at hi
  · exact settled_finishTransfer hl _ _

theorem settled_endTransfer (hs : s.settled) (hl : s.listLaw) {f : Transfer} (he : s.engine = .transfer f)
    (how : TransferEnd) : (s.endTransfer f how).settled := by
  have hother : ∀ o : Option Report, (match o with | none => s | some r => s.finishTransfer f.work r).settled := fun o => by
    cases o with
    | none => exact hs
    | some r => exact settled_finishTransfer hl _ _
  cases how with
  | addressNack => exact settled_nackAddress hs hl he
  | finished d => exact hother _
  | dataNack n => exact hother _
  | aborted n d => exact hother _

theorem settled_endAttempt (hl : s.listLaw) (he : s.engine = .recovery true) (hs : s.settled) (l : Lines) :
    (s.endAttempt l).settled := by
  simp only [State.endAttempt]
  split
  · exact settled_settle (listLaw_of_fields hl (by simp) (by simp))
  · split
    · exact settled_enterFaulted _
    · refine settled_of_quiet (Quiet.setEngine_busy (t := State.setMonitor _ _) (.of_fields rfl rfl rfl rfl ?_) (by simp)) hs
      intro hi
      have : s.engine = .idle := hi
      rw [he] at this
      cases this

theorem settled_observeStart (hs : s.settled) (hl : s.listLaw) : s.observeStart.settled := by
  simp only [State.observeStart]
  split
  · split
    · exact settled_loseTransfer hl _ _ _ _
    · have hq := Quiet.reachForeign s .idle linesAfterStart
      split
      · exact settled_of_quiet (hq.trans (.setMonitor _ id)) hs
      · exact settled_of_quiet hq hs
  · exact hs

theorem settled_observeStop (hs : s.settled) (hl : s.listLaw) : s.observeStop.settled := by
  have hstop : (((s.setEngine .idle).reachFree).settle).settled := settled_settle (listLaw_of_fields hl (by simp) (by simp))
  simp only [State.observeStop]
  split
  · split
    case h_4 => exact settled_of_quiet (.setMonitor s id) hs
    case h_1 | h_2 | h_3 => exact hstop
    all_goals exact hs
  · exact hs

theorem settled_observeOther (hs : s.settled) (hl : s.listLaw) (l : Lines) : (s.observeOther l).settled := by
  have hseen : Quiet s (s.setMonitor { s.monitor with lines := l }) := .setMonitor s id
  have hforeign : Quiet s (s.reachForeign l) := .reachForeign s s.engine l
  simp only [State.observeOther]
  split
  · split <;> exact settled_of_quiet (hseen.trans (.setMonitor _ id)) hs
  · split
    · exact settled_loseTransfer hl _ _ _ _
    · exact settled_of_quiet hforeign hs
  · exact settled_of_quiet (hseen.trans (.setMonitor _ id)) hs
  all_goals exact settled_of_quiet hseen hs

theorem settled_observeChange (hs : s.settled) (hl : s.listLaw) (c : LineChange) : (s.observeChange c).settled := by
  simp only [State.observeChange]
  split
  · exact hs
  · split
    · exact settled_observeStart hs hl
    · split
      · exact settled_observeStop hs hl
      · exact settled_observeOther hs hl _

theorem next_inj {a b : State} (h : (Host.Outcome.next a : Answer) = .next b) : a = b := by cases h; rfl

/-- An event that leaves the device settled where it is taken leaves it settled in reset as well. -/
theorem settled_event (hs : s.settled) {z : State} (hz : z.settled) (h : s.event z = .next t) : t.settled := by
  rw [← next_inj h]
  split
  · exact hs
  · exact hz

theorem settled_next {z : State} (hz : z.settled) (h : (Host.Outcome.next z : Answer) = .next t) : t.settled :=
  next_inj h ▸ hz

/-- Every host command leaves a settled device settled. -/
theorem settled_exec_header {c : Instr} {p : Port} (hc : headerPort c = some p) (hpool : s.poolLaw) (hlock : s.lockLaw)
    (htable : s.tableLaw) (hs : s.settled) (h : exec c s = .next t) : t.settled := by
  have hl := listLaw_of_poolLaw hpool
  cases c <;> simp only [headerPort, reduceCtorEq] at hc
  case info | status | getParameter | mirrorFind | mirrorRead | targetQuery =>
    exact settled_next (settled_command hs fun _ => hs) h
  case attach => exact settled_next (settled_command hs fun _ => settled_attachBody hs hl _) h
  case detach | evictPort =>
    refine settled_next (settled_command hs fun _ => ?_) h
    dsimp only
    split
    · exact settled_endSession_settle hl _
    · exact hs
  case repeatResponse =>
    refine settled_next ?_ h
    split
    · exact settled_of_quiet (.updPort s _ _) hs
    · exact hs
  case submit p args =>
    simp only [exec, execSubmit] at h
    split at h
    · exact settled_next (settled_command hs fun _ => settled_submitBody hs hl _ _) h
    · cases h
  case cancel => exact settled_next (settled_command hs fun _ => settled_cancelBody hs hl _ _) h
  case fetch => exact settled_next (settled_command hs fun _ => settled_fetchBody hs hpool _ _ _) h
  case readNotice => exact settled_next (settled_command hs fun _ => settled_readNoticeBody hs _) h
  case setNoticeMask =>
    exact settled_next (settled_command hs fun _ => settled_of_quiet (.setNoticePort s _ _) hs) h
  case lock => exact settled_next (settled_command hs fun _ => settled_lockBody hs hl _ _ _ _) h
  case renew => exact settled_next (settled_command hs fun _ => settled_renewBody hs _ _) h
  case unlock => exact settled_next (settled_command hs fun _ => settled_unlockBody hs hl hlock _ _) h
  case mirrorDefine => exact settled_next (settled_command hs fun _ => settled_mirrorDefineBody hs hl _ _ _) h
  case mirrorDrop => exact settled_next (settled_command hs fun _ => settled_mirrorDropBody hs hl _ _) h
  case declareTarget => exact settled_next (settled_command hs fun _ => settled_declareBody hs hl _) h
  case removeTarget => exact settled_next (settled_command hs fun _ => settled_removeBody hs htable _) h
  case clearQuarantine => exact settled_next (settled_command hs fun _ => settled_clearBody hs hl _) h
  case forceUnlock => exact settled_next (settled_command hs fun _ => settled_forceUnlockBody hs hl _) h
  case setParameter => exact settled_next (settled_command hs fun _ => settled_setParameterBody hs hl _ _ _) h
  case busReset => exact settled_next (settled_command hs fun _ => settled_busResetBody hs) h
  case resetPart p =>
    exact settled_next (settled_command hs fun _ => settled_of_quiet (t := s.updPort p _) (.updPort s p _) hs) h
  case unknownCommand p code =>
    simp only [exec, execUnknownCommand] at h
    split at h
    · cases h
    · refine settled_next ?_ h
      split
      · exact settled_of_quiet (.respond s _ _) hs
      · exact hs
  case checkError =>
    refine settled_next ?_ h
    split
    · exact settled_of_quiet (.updPort _ _ _) (settled_of_quiet (.updPort s _ _) hs)
    · exact hs

/-- Every frame event, reset, timer expiry and event of the field bus leaves a settled device settled. -/
theorem settled_exec_event {c : Instr} (hc : headerPort c = none) (hl : s.listLaw) (hs : s.settled)
    (h : exec c s = .next t) : t.settled := by
  cases c <;> simp only [headerPort, reduceCtorEq] at hc
  case frameOpen | statusByteShiftedOut | frameAbandoned | ncsRiseInIdle =>
    refine settled_event hs ?_ h
    split
    · exact settled_of_quiet (.updPort s _ _) hs
    · exact hs
  case frameEnd =>
    refine settled_event hs ?_ h
    split
    · split
      · exact settled_takeResetPart s _ _
      · exact settled_of_quiet (.updPort s _ _) hs
    · exact hs
  case resetPartTaken =>
    refine settled_event hs ?_ h
    split
    · exact settled_takeResetPart s _ _
    · exact hs
  case powerOnReset | nrstLow => exact settled_next (settled_enterReset s _) h
  case powerOnResetEnd | nrstRelease =>
    refine settled_next ?_ h
    split
    · split
      · exact settled_of_quiet (.of_all_fields rfl rfl rfl rfl rfl rfl) hs
      · exact settled_leaveReset s _ _ _ _
    · exact hs
  case classAgingExpiry w => exact settled_event hs (settled_of_quiet (.ageOne s w) hs) h
  case lockLeaseExpiry =>
    refine settled_event hs ?_ h
    split
    · exact hs
    · split
      · exact settled_settle (listLaw_release hl _ _ _)
      · exact hs
  case mirrorPollDue =>
    refine settled_event hs ?_ h
    split
    · exact hs
    · split
      · exact hs
      · split
        · exact settled_pollTimerExpires hs hl _ _ _
        · exact hs
  case staleLimitExpiry =>
    refine settled_event hs ?_ h
    split
    · exact hs
    · split
      · exact settled_of_quiet (.goStale s _ _) hs
      · exact hs
  case probeDueExpiry =>
    refine settled_event hs ?_ h
    split
    · exact hs
    · split
      · exact settled_settle (listLaw_updTarget hl _ _)
      · exact hs
  case stretchTimeout =>
    refine settled_event hs ?_ h
    split
    · split
      · exact settled_settle (listLaw_deliver (listLaw_of_fields hl (by simp) (by simp)) _ _)
      · exact hs
    · exact hs
  case hangTimerExpiry | nextRecoveryAttempt =>
    refine settled_event hs ?_ h
    split
    · exact settled_hangExpires hs hl
    · exact hs
  case idleConfirmationExpiry =>
    refine settled_event hs ?_ h
    split
    · exact settled_settle (listLaw_of_fields hl (by simp) (by simp))
    · exact hs
  case faultRetryExpiry =>
    refine settled_event hs ?_ h
    split
    · exact settled_of_quiet (.beginAttempt s) hs
    · exact hs
  case transferCompletion how =>
    refine settled_event hs ?_ h
    split
    · exact hs
    · next hf => exact settled_endTransfer hs hl (engine_of_onBus hf) how
  case arbitrationLoss =>
    refine settled_event hs ?_ h
    split
    · exact hs
    · split
      · exact settled_loseTransfer hl _ _ _ _
      · exact hs
  case start =>
    refine settled_event hs ?_ h
    split
    · exact hs
    · exact settled_of_quiet (.countAttempt s _ _ (by simp)) hs
  case lineActivityBeforeStart =>
    refine settled_event hs ?_ h
    split
    · exact hs
    · split <;> exact settled_loseTransfer hl _ _ _ _
  case recoveryAttemptEnd =>
    refine settled_event hs ?_ h
    split
    · next he => exact settled_endAttempt hl he hs _
    · exact hs
  case foreignStart => exact settled_event hs (settled_observeStart hs hl) h
  case foreignStop => exact settled_event hs (settled_observeStop hs hl) h
  case lineActivity c => exact settled_event hs (settled_observeChange hs hl c) h
  case millisecondBoundary =>
    refine settled_event hs ?_ h
    exact settled_of_quiet (.of_all_fields rfl rfl rfl rfl rfl rfl) hs
  case addressAttemptNack =>
    refine settled_event hs ?_ h
    split
    · exact hs
    · next hf => exact settled_nackAddress hs hl (engine_of_onBus hf)
  case clockStretchStart =>
    refine settled_event hs ?_ h
    split
    · exact hs
    · exact settled_of_quiet ((Quiet.refl s).setEngine_busy (by simp)) hs
  case clockStretchEnd =>
    refine settled_event hs ?_ h
    split
    · split
      · exact settled_of_quiet ((Quiet.refl s).setEngine_busy (by simp)) hs
      · exact hs
    · exact hs

/-- Settles O48: every command and event leaves a settled state settled, either since it ends in the re-evaluation, which
settles every state that meets the law of the request lists, or since it is quiet. Of the laws those of the pool, the locks
and the tables are used. -/
theorem noIdlingWhileWorkWaits : Obligations.NoIdlingWhileWorkWaits := by
  intro c s t _ hpool hlock _ _ htable _ hs h
  change s.settled at hs
  change t.settled
  cases hc : headerPort c with
  | none => exact settled_exec_event hc (listLaw_of_poolLaw hpool) hs h
  | some p => exact settled_exec_header hc hpool hlock htable hs h

end Sys2Proof.Machine

/-! ## Rules about updates

Records that are written twice, folds over a table that touch each place once, and states that agree field by field. -/

namespace Sys2Proof.Machine

open Sys2Proof

variable {s : State}

theorem updEntry_setEntry (s : State) (e : EntryId) (i : Byte) (u : MirrorUse) (f : MirrorUse → MirrorUse) :
    (s.setEntry e ⟨i, some u⟩).updEntry e f = s.setEntry e ⟨i, some (f u)⟩ := by
  rw [updEntry_eq (u := u) (by simp), entry_setEntry, if_pos rfl, setEntry_setEntry]

theorem updTarget_setTarget (s : State) (t : TargetId) (x : Target) (f : Target → Target) :
    (s.setTarget t (some x)).updTarget t f = s.setTarget t (some (f x)) := by
  rw [updTarget_eq (x := x) (by simp), setTarget_setTarget]

theorem updRequest_setSlot (s : State) (n : SlotId) (i : Byte) (r : Request) (f : Request → Request) :
    (s.setSlot n ⟨i, some r⟩).updRequest n f = s.setSlot n ⟨i, some (f r)⟩ := by
  rw [updRequest_eq (r := r) (by simp), slot_setSlot, if_pos rfl, setSlot_setSlot]

theorem slot_updRequest (s : State) (n m : SlotId) (f : Request → Request) :
    (s.updRequest n f).slot m = if m = n then ⟨(s.slot n).issue, (s.request n).map f⟩ else s.slot m := by
  simp [State.updRequest]

theorem entry_updEntry (s : State) (e d : EntryId) (f : MirrorUse → MirrorUse) :
    (s.updEntry e f).entry d = if d = e then ⟨(s.entry e).issue, (s.entryUse e).map f⟩ else s.entry d := by
  simp [State.updEntry]

/-- An event that the device is not held from taking is taken. -/
theorem event_taken (h : s.inReset = false) (z : State) : s.event z = .next z := by simp [State.event, h]

/-- A fold over a table whose steps change each its own place: every place is changed once. `P` is what the steps keep and the
change of a place needs. -/
theorem foldl_finRange_get {k : Nat} {β : Type} {get : State → Fin k → β} {f : State → Fin k → State} {g : β → β}
    {P : State → Prop} (keep : ∀ a i, P a → P (f a i)) (self : ∀ a i, P a → get (f a i) i = g (get a i))
    (other : ∀ a i j, j ≠ i → get (f a i) j = get a j) {s : State} (hs : P s) (i : Fin k) :
    get ((List.finRange k).foldl f s) i = g (get s i) := by
  have pass : ∀ (l : List (Fin k)) (a : State), P a → l.Nodup →
      get (l.foldl f a) i = if i ∈ l then g (get a i) else get a i := by
    intro l
    induction l with
    | nil => simp
    | cons j l ih =>
      intro a ha hl
      obtain ⟨hj, hl⟩ := List.nodup_cons.1 hl
      rw [List.foldl_cons, ih _ (keep a j ha) hl]
      by_cases e : i = j
      · subst e
        simp [hj, self a i ha]
      · simp [e, other a j i e]
  rw [pass _ s hs (List.nodup_finRange k), if_pos (List.mem_finRange i)]

/-- A class mark calls for a promotion in the words of Safety.lean (R40). -/
theorem overdue_eq (s : State) (c : WorkClass) (m : Nat) : s.overdue c m = s.callsForPromotion c m := by
  rw [Bool.eq_iff_iff]
  simp [State.overdue, State.callsForPromotion, Nat.pos_iff_ne_zero, and_assoc]

theorem promoted_eq_above (c : WorkClass) : c.promoted = c.above := by cases c <;> rfl

/-- Whether a mark calls for a promotion depends on the aging limit and the time alone. -/
theorem callsForPromotion_congr {a b : State} (hp : a.params = b.params) (hn : a.now = b.now) :
    a.callsForPromotion = b.callsForPromotion := by
  funext c m
  simp [State.callsForPromotion, hp, hn]

theorem aged_eq_promotedIfDue {a : State} (hp : a.params = s.params) (hn : a.now = s.now) (r : Request) :
    r.aged a = r.promotedIfDue s := by
  simp [Request.aged, Request.promotedIfDue, overdue_eq, promoted_eq_above, callsForPromotion_congr hp hn, hn]

theorem maint_aged_eq_promotedIfDue {a : State} (hp : a.params = s.params) (hn : a.now = s.now) (m : Maint) :
    m.aged a = m.promotedIfDue s := by
  simp [Maint.aged, Maint.promotedIfDue, overdue_eq, promoted_eq_above, callsForPromotion_congr hp hn, hn]

/-- Two states with the same fields are the same. -/
theorem State.eq_of_fields {a b : State}
    (world : a.pending = b.pending ∧ a.hold = b.hold ∧ a.supervisor = b.supervisor ∧ a.cause = b.cause
      ∧ a.params = b.params ∧ a.now = b.now)
    (ports : a.ports = b.ports) (notices : a.notices = b.notices) (slots : a.slots = b.slots) (lists : a.lists = b.lists)
    (pointers : a.pointers = b.pointers) (entries : a.entries = b.entries) (targets : a.targets = b.targets)
    (engine : a.engine = b.engine) (monitor : a.monitor = b.monitor) : a = b := by
  obtain ⟨h1, h2, h3, h4, h5, h6⟩ := world
  cases a
  cases b
  simp_all

end Sys2Proof.Machine

/-! ## Time and aging (O41) -/

namespace Sys2Proof.Machine

open Sys2Proof

variable {s : State}

/-- What an aging pass reads and keeps: the parameters and the time. -/
def State.sameClock (s a : State) : Prop := a.params = s.params ∧ a.now = s.now

/-! ### The aging pass (R40, R41) -/

/-- The aging pass over the slots, over the entries and over the targets. -/
def State.ageSlots (s : State) : State := (List.finRange 48).foldl (fun s n => s.ageOne (.slot n)) s
def State.agePolls (s : State) : State := (List.finRange 24).foldl (fun s e => s.ageOne (.poll e)) s
def State.ageProbes (s : State) : State := (List.finRange 32).foldl (fun s t => s.ageOne (.probe t)) s

theorem ageAll_eq (s : State) : s.ageAll = s.ageSlots.agePolls.ageProbes := rfl

/-- The pass over one table leaves the others. -/
theorem ageSlots_keep (s : State) : s.ageSlots.entries = s.entries ∧ s.ageSlots.targets = s.targets
    ∧ s.sameClock s.ageSlots :=
  ⟨foldl_keep State.entries (fun _ _ => by simp [State.ageOne]) _ _,
    foldl_keep State.targets (fun _ _ => by simp [State.ageOne]) _ _,
    foldl_keep State.params (fun _ _ => by simp) _ _, foldl_keep State.now (fun _ _ => by simp) _ _⟩

theorem agePolls_keep (s : State) : s.agePolls.slots = s.slots ∧ s.agePolls.targets = s.targets
    ∧ s.sameClock s.agePolls :=
  ⟨foldl_keep State.slots (fun _ _ => by simp [State.ageOne]) _ _,
    foldl_keep State.targets (fun _ _ => by simp [State.ageOne]) _ _,
    foldl_keep State.params (fun _ _ => by simp) _ _, foldl_keep State.now (fun _ _ => by simp) _ _⟩

theorem ageProbes_keep (s : State) : s.ageProbes.slots = s.slots ∧ s.ageProbes.entries = s.entries :=
  ⟨foldl_keep State.slots (fun _ _ => by simp [State.ageOne]) _ _,
    foldl_keep State.entries (fun _ _ => by simp [State.ageOne]) _ _⟩

theorem sameClock_ageOne {a : State} (w : Waiting) (h : s.sameClock a) : s.sameClock (a.ageOne w) := by
  simpa [State.sameClock] using h

theorem slot_ageSlots (s : State) (n : SlotId) : s.ageSlots.slot n = ⟨(s.slot n).issue, (s.request n).map fun r =>
    if r.state = .queued then r.promotedIfDue s else r⟩ := by
  refine foldl_finRange_get (get := State.slot) (f := fun s n => s.ageOne (.slot n)) (P := s.sameClock)
    (g := fun v => ⟨v.issue, v.held.map fun r => if r.state = .queued then r.promotedIfDue s else r⟩)
    (fun a m => sameClock_ageOne (.slot m)) (fun a m ha => ?_) (fun a m k hk => ?_) ⟨rfl, rfl⟩ n
  · have hf : Request.agedQueued a = fun r => if r.state = .queued then r.promotedIfDue s else r := by
      funext r
      simp only [Request.agedQueued, aged_eq_promotedIfDue ha.1 ha.2]
    simp only [State.ageOne, slot_updRequest, if_true, hf]
    rfl
  · simp [State.ageOne, slot_updRequest, hk]

theorem entry_agePolls (s : State) (e : EntryId) : s.agePolls.entry e = ⟨(s.entry e).issue, (s.entryUse e).map fun u =>
    { u with pending := u.pending.map fun m => m.promotedIfDue s }⟩ := by
  refine foldl_finRange_get (get := State.entry) (f := fun s e => s.ageOne (.poll e)) (P := s.sameClock)
    (g := fun v => ⟨v.issue, v.use.map fun u => { u with pending := u.pending.map fun m => m.promotedIfDue s }⟩)
    (fun a d => sameClock_ageOne (.poll d)) (fun a d ha => ?_) (fun a d k hk => ?_) ⟨rfl, rfl⟩ e
  · have hf : Maint.aged a = fun m => m.promotedIfDue s := funext (maint_aged_eq_promotedIfDue ha.1 ha.2)
    simp only [State.ageOne, entry_updEntry, if_true, hf]
    rfl
  · simp [State.ageOne, entry_updEntry, hk]

theorem target_ageProbes (s : State) (t : TargetId) : s.ageProbes.target t = (s.target t).map fun x =>
    { x with probe := x.probe.map fun m => m.promotedIfDue s } := by
  refine foldl_finRange_get (get := State.target) (f := fun s t => s.ageOne (.probe t)) (P := s.sameClock)
    (g := fun v => v.map fun x => { x with probe := x.probe.map fun m => m.promotedIfDue s })
    (fun a u => sameClock_ageOne (.probe u)) (fun a u ha => ?_) (fun a u k hk => ?_) ⟨rfl, rfl⟩ t
  · have hf : Maint.aged a = fun m => m.promotedIfDue s := funext (maint_aged_eq_promotedIfDue ha.1 ha.2)
    simp only [State.ageOne, target_updTarget, if_true, hf]
  · simp [State.ageOne, hk]

/-- A promotion in a state of the same clock is the promotion now. -/
theorem promotedIfDue_of_sameClock {a : State} (h : s.sameClock a) :
    (fun m : Maint => m.promotedIfDue a) = fun m => m.promotedIfDue s := by
  funext m
  rw [← maint_aged_eq_promotedIfDue (a := a) (s := a) rfl rfl, maint_aged_eq_promotedIfDue h.1 h.2]

/-- A new aging limit acts on everything that waits at once (R41). -/
theorem ageAll_spec (s : State) :
    s.ageAll = { s with slots := s.ageAll.slots, entries := s.ageAll.entries, targets := s.ageAll.targets }
      ∧ (∀ n, s.ageAll.slot n = ⟨(s.slot n).issue, (s.request n).map fun r =>
          if r.state = .queued then r.promotedIfDue s else r⟩)
      ∧ (∀ e, s.ageAll.entry e = ⟨(s.entry e).issue, (s.entryUse e).map fun u => { u with
          pending := u.pending.map fun m => m.promotedIfDue s }⟩)
      ∧ ∀ t, s.ageAll.target t = (s.target t).map fun x => { x with
          probe := x.probe.map fun m => m.promotedIfDue s } := by
  obtain ⟨hse, hst, hsc⟩ := ageSlots_keep s
  obtain ⟨hps, hpt, hpc⟩ := agePolls_keep s.ageSlots
  obtain ⟨hbs, hbe⟩ := ageProbes_keep s.ageSlots.agePolls
  have hpc : s.sameClock s.ageSlots.agePolls := ⟨hpc.1.trans hsc.1, hpc.2.trans hsc.2⟩
  refine ⟨by apply State.eq_of_fields <;> simp, fun n => ?_, fun e => ?_, fun t => ?_⟩
  · rw [ageAll_eq, slot_of_slots (hbs.trans hps), slot_ageSlots]
  · rw [ageAll_eq, entry_of_entries hbe, entry_agePolls, entry_of_entries hse, entryUse_of_entries hse,
      promotedIfDue_of_sameClock hsc]
  · rw [ageAll_eq, target_ageProbes, target_of_targets (hpt.trans hst), promotedIfDue_of_sameClock hpc]

/-! ### The new maintenance class (R42) -/

/-- The pass of a new maintenance class over the entries, and over the targets. -/
def State.reclassPolls (s : State) : State :=
  (List.finRange 24).foldl (fun s e => s.updEntry e fun u => { u with pending := u.pending.map (Maint.reclassed s) }) s
def State.reclassProbes (s : State) : State :=
  (List.finRange 32).foldl (fun s t => s.updTarget t fun x => { x with probe := x.probe.map (Maint.reclassed s) }) s

theorem reclassAll_eq (s : State) : s.reclassAll = s.reclassPolls.reclassProbes := rfl

theorem reclassed_of_sameClock {a : State} (h : s.sameClock a) :
    Maint.reclassed a = fun m => { m with cls := s.params.maintenanceClass, mark := s.now } := by
  funext m
  simp [Maint.reclassed, h.1, h.2]

theorem reclassPolls_keep (s : State) : s.reclassPolls.targets = s.targets ∧ s.sameClock s.reclassPolls :=
  ⟨foldl_keep State.targets (fun _ _ => by simp) _ _, foldl_keep State.params (fun _ _ => by simp) _ _,
    foldl_keep State.now (fun _ _ => by simp) _ _⟩

theorem entry_reclassPolls (s : State) (e : EntryId) : s.reclassPolls.entry e = ⟨(s.entry e).issue, (s.entryUse e).map
    fun u => { u with pending := u.pending.map fun m => { m with cls := s.params.maintenanceClass, mark := s.now } }⟩ := by
  refine foldl_finRange_get (get := State.entry) (P := s.sameClock)
    (f := fun s e => s.updEntry e fun u => { u with pending := u.pending.map (Maint.reclassed s) })
    (g := fun v => ⟨v.issue, v.use.map fun u => { u with
      pending := u.pending.map fun m => { m with cls := s.params.maintenanceClass, mark := s.now } }⟩)
    (fun a d ha => by simpa [State.sameClock] using ha) (fun a d ha => ?_) (fun a d k hk => ?_) ⟨rfl, rfl⟩ e
  · rw [entry_updEntry, if_pos rfl, reclassed_of_sameClock ha]
    rfl
  · rw [entry_updEntry, if_neg hk]

theorem target_reclassProbes (s : State) (t : TargetId) : s.reclassProbes.target t = (s.target t).map
    fun x => { x with probe := x.probe.map fun m => { m with cls := s.params.maintenanceClass, mark := s.now } } := by
  refine foldl_finRange_get (get := State.target) (P := s.sameClock)
    (f := fun s t => s.updTarget t fun x => { x with probe := x.probe.map (Maint.reclassed s) })
    (g := fun v => v.map fun x => { x with
      probe := x.probe.map fun m => { m with cls := s.params.maintenanceClass, mark := s.now } })
    (fun a d ha => by simpa [State.sameClock] using ha) (fun a d ha => ?_) (fun a d k hk => ?_) ⟨rfl, rfl⟩ t
  · rw [target_updTarget, if_pos rfl, reclassed_of_sameClock ha]
  · rw [target_updTarget, if_neg hk]

/-- A new maintenance class acts on every pending item at once (R42). -/
theorem reclassAll_spec (s : State) :
    s.reclassAll = { s with entries := s.reclassAll.entries, targets := s.reclassAll.targets }
      ∧ (∀ e, s.reclassAll.entry e = ⟨(s.entry e).issue, (s.entryUse e).map fun u => { u with
          pending := u.pending.map fun m => { m with cls := s.params.maintenanceClass, mark := s.now } }⟩)
      ∧ ∀ t, s.reclassAll.target t = (s.target t).map fun x => { x with
          probe := x.probe.map fun m => { m with cls := s.params.maintenanceClass, mark := s.now } } := by
  obtain ⟨hpt, hpc⟩ := reclassPolls_keep s
  have hbe : s.reclassPolls.reclassProbes.entries = s.reclassPolls.entries :=
    foldl_keep State.entries (fun _ _ => by simp) _ _
  refine ⟨by apply State.eq_of_fields <;> simp, fun e => ?_, fun t => ?_⟩
  · rw [reclassAll_eq, entry_of_entries hbe, entry_reclassPolls]
  · rw [reclassAll_eq, target_reclassProbes, target_of_targets hpt, hpc.1, hpc.2]

/-- Settles O41: the boundary and the aging timers by what their events do to one record, and the two parameters by the
passes over the tables, in which every place is changed once. -/
theorem timeAndAging : Obligations.TimeAndAging := by
  refine ⟨fun s h => event_taken h _, fun s n r h hr hq => ?_, fun s e u m h hu hm => ?_, fun s t x m h hx hm => ?_,
    ageAll_spec, reclassAll_spec⟩
  · refine (event_taken h _).trans (congrArg Host.Outcome.next ?_)
    rw [State.ageOne, updRequest_eq hr, Request.agedQueued, if_pos hq, aged_eq_promotedIfDue rfl rfl]
  · refine (event_taken h _).trans (congrArg Host.Outcome.next ?_)
    rw [State.ageOne, updEntry_eq hu, hm, Option.map_some, maint_aged_eq_promotedIfDue rfl rfl]
  · refine (event_taken h _).trans (congrArg Host.Outcome.next ?_)
    rw [State.ageOne, updTarget_eq hx, hm, Option.map_some, maint_aged_eq_promotedIfDue rfl rfl]

end Sys2Proof.Machine

/-! ## The timers of a mirror entry (O33) -/

namespace Sys2Proof.Machine

open Sys2Proof

variable {s : State}

theorem makePollDue_setEntry (s : State) (e : EntryId) (i : Byte) {u : MirrorUse} (h : u.pending = none) (due : Nat) :
    (s.setEntry e ⟨i, some u⟩).makePollDue e due = s.setEntry e ⟨i, some { u with
      pending := some ⟨s.params.maintenanceClass, s.now, 0, due, false⟩ }⟩ := by
  simp only [State.makePollDue, updEntry_setEntry, h]
  rfl

/-- The poll due timer at its expiry, by whether a poll pends or runs (R57). -/
theorem pollTimerExpires_eq {e : EntryId} {u : MirrorUse} (hu : s.entryUse e = some u) (tm : Timer) :
    s.pollTimerExpires e u tm =
      if u.pending.isSome then s.setEntry e ⟨(s.entry e).issue, some { u with dueTimer := none }⟩
      else if s.pollRunning e then s.setEntry e ⟨(s.entry e).issue, some { u with
        dueTimer := none, dueAfterRun := some tm.expiry }⟩
      else ((s.setEntry e ⟨(s.entry e).issue, some { u with dueTimer := none }⟩).makePollDue e tm.expiry).settle := by
  simp only [State.pollTimerExpires, updEntry_eq hu, updEntry_setEntry]

/-- A timer has expired once the boundary count has reached its expiry (R27). -/
theorem timer_due {tm : Timer} {now : Nat} (h : tm.setAt + tm.length ≤ now) : tm.due now = true := decide_eq_true h

theorem exec_mirrorPollDue {e : EntryId} {u : MirrorUse} {tm : Timer} (hr : s.inReset = false)
    (hu : s.entryUse e = some u) (ht : u.dueTimer = some tm) (hdue : tm.setAt + tm.length ≤ s.now) :
    exec (.mirrorPollDue e) s = .next (s.pollTimerExpires e u tm) := by
  change s.event _ = _
  rw [event_taken hr]
  simp only [hu, ht, timer_due hdue, if_true]

/-- Settles O33: each timer, at its expiry, changes the record of its entry once. -/
theorem mirrorTimersExpire : Obligations.MirrorTimersExpire := by
  intro s e u tm hr hu hdue
  refine ⟨fun ht => ⟨fun hp hrun => ?_, fun hp => ?_, fun hp hrun => ?_⟩, fun hv ht => ?_⟩
  · rw [exec_mirrorPollDue hr hu ht hdue, pollTimerExpires_eq hu, if_neg (by simp [hp]), if_neg (by simp [hrun]),
      makePollDue_setEntry s e _ (by exact hp)]
    rfl
  · rw [exec_mirrorPollDue hr hu ht hdue, pollTimerExpires_eq hu, if_pos (Option.isSome_iff_ne_none.2 hp)]
  · rw [exec_mirrorPollDue hr hu ht hdue, pollTimerExpires_eq hu, if_neg (by simp [hp]), if_pos hrun]
    rfl
  · have h : u.state = .valid ∧ timerDue u.staleTimer s.now = true :=
      ⟨hv, by simp [timerDue, ht, timer_due hdue]⟩
    change s.event _ = _
    rw [event_taken hr]
    simp only [hu, h, and_self, if_true, State.goStale, updEntry_eq hu]
    rfl

end Sys2Proof.Machine

/-! ## Health accounting and the end of a quarantine (O38, O37) -/

namespace Sys2Proof.Machine

open Sys2Proof

variable {s : State}

theorem target_notLockedAll (s : State) : s.notLockedAll.target = s.target := target_of_targets (by simp)

/-- TARGET STATE in the words of Safety.lean: for a record with the port sets of `x`, in a state with the ports of `s`, to the
ports that hear of `x` (R87). -/
theorem offerTargetState_eq {z : State} {t : TargetId} {x y : Target} (hy : z.target t = some y) (hp : z.ports = s.ports)
    (hr : y.readSet = x.readSet) (hw : y.writeSet = x.writeSet) :
    z.offerTargetState t = z.offerTo (.targetState y.addr y.health y.failures) (s.hears x) := by
  have ha : z.audience y = s.hears x := by
    simp only [State.audience, State.attachedPorts, State.hears, List.filter_filter, port_of_ports hp, hr, hw,
      PortSet.has, Bool.and_comm]
  simp only [State.offerTargetState, hy, ha]

/-! ### Accounting (R84, R85, R86) -/

theorem account_undeclared {a : Byte} (h : s.targetAt a = none) (o : TransferOutcome) (b : Bool) :
    s.account a o b = s := by
  simp [State.account, findTarget_of_targetAt_none h]

theorem account_neutral {o : TransferOutcome} {b : Bool} (h : evidence o b = .neutral) (a : Byte) : s.account a o b = s := by
  simp only [State.account, h]
  split <;> rfl

theorem account_failure {a : Byte} {t : TargetId} {x : Target} {o : TransferOutcome} {b : Bool}
    (hl : s.lookup a = some (t, x)) (h : evidence o b = .failure) : s.account a o b = s.countFailure t := by
  simp only [State.account, (lookup_eq_some hl).1, h]

theorem account_success {a : Byte} {t : TargetId} {x : Target} {o : TransferOutcome} {b : Bool}
    (hl : s.lookup a = some (t, x)) (h : evidence o b = .success) : s.account a o b = s.countSuccess t := by
  simp only [State.account, (lookup_eq_some hl).1, h]

section

variable {t : TargetId} {x : Target} {n : Nat}

/-- A failure below the threshold on a target that is not ONLINE, and any on one in quarantine, is counted (R85). -/
theorem countFailure_counted (hx : s.target t = some x) (hn : n = min (x.failures + 1) 255)
    (h : x.health = .quarantined ∨ x.health = .suspect ∧ n < x.threshold) :
    s.countFailure t = s.setTarget t (some { x with failures := n }) := by
  subst hn
  simp only [State.countFailure, hx, updTarget_eq hx, Config.countMax]
  rcases h with h | ⟨h, hlt⟩
  · simp only [h]
  · simp only [h, if_neg (Nat.not_le.2 hlt)]

/-- A failure that reaches the threshold starts quarantine (R85). -/
theorem countFailure_onset (hx : s.target t = some x) (hn : n = min (x.failures + 1) 255)
    (h : x.health ≠ .quarantined) (hle : x.threshold ≤ n) :
    s.countFailure t = (s.setTarget t (some { x with failures := n })).quarantineOnset t := by
  subst hn
  simp only [State.countFailure, hx, updTarget_eq hx, Config.countMax]
  cases hh : x.health with
  | quarantined => exact absurd hh h
  | online => simp only [if_pos hle]
  | suspect => simp only [if_pos hle]

/-- A failure below the threshold takes an ONLINE target to SUSPECT (R85). -/
theorem countFailure_suspect (hx : s.target t = some x) (hn : n = min (x.failures + 1) 255) (h : x.health = .online)
    (hlt : n < x.threshold) : s.countFailure t
      = (s.setTarget t (some { x with failures := n, health := .suspect })).notLockedAll.offerTargetState t := by
  subst hn
  simp only [State.countFailure, hx, updTarget_eq hx, Config.countMax, h, if_neg (Nat.not_le.2 hlt), updTarget_setTarget]

end

theorem countSuccess_eq {t : TargetId} {x : Target} (hx : s.target t = some x) :
    s.countSuccess t = if x.health = .quarantined then s.quarantineEnd t
      else s.setTarget t (some { x with failures := 0, health := .online }) := by
  simp only [State.countSuccess, hx, updTarget_eq hx]
  cases x.health <;> simp

/-- Settles O38, by the class of the completion and then by the health of the target. -/
theorem healthAccounting : Obligations.HealthAccounting := by
  intro s a o b failure success
  refine ⟨?_, fun t x hl => ?_⟩
  · rintro (h | rfl | ⟨rfl, rfl⟩)
    · exact account_undeclared h o b
    · exact account_neutral rfl a
    · exact account_neutral rfl a
  obtain ⟨-, hx, ha, -⟩ := lookup_eq_some hl
  refine ⟨fun hf n hn => ?_, fun hsuc => ?_⟩
  · have hev : evidence o b = .failure := by rcases hf with rfl | rfl <;> rfl
    rw [account_failure hl hev]
    refine ⟨countFailure_counted hx hn, fun ho hlt => ?_, countFailure_onset hx hn⟩
    rw [countFailure_suspect hx hn ho hlt]
    refine (offerTargetState_eq (s := s) (x := x) (y := { x with failures := n, health := .suspect }) ?_ ?_ rfl rfl).trans
      (by rw [← ha])
    · rw [target_notLockedAll]
      simp
    · simp
  · have hev : evidence o b = .success := by rcases hsuc with rfl | rfl | ⟨rfl, rfl⟩ <;> rfl
    rw [account_success hl hev, countSuccess_eq hx]
    exact ⟨fun hq => if_pos hq, fun hq => if_neg hq⟩

end Sys2Proof.Machine

/-! ## The end of a quarantine (O37) -/

namespace Sys2Proof.Machine

open Sys2Proof

variable {s : State}

/-! ### What the return does to the entries (R68) -/

/-- The state in which an entry returns with its target (R68). -/
def MirrorUse.stateOnReturn (u : MirrorUse) : MirrorState := if u.value = none then .priming else .stale

/-- The record of an entry after the return of the target at an address: one FAILED on it goes to STALE or PRIMING with its
poll due now, and any other stays (R68). -/
def MirrorUse.afterReturn (s : State) (a : Byte) (u : MirrorUse) : MirrorUse :=
  if u.key.addr = a ∧ u.state = .failed then
    { u with
      state := u.stateOnReturn, nextDue := none
      pending := u.pending <|> some ⟨s.params.maintenanceClass, s.now, 0, s.now, false⟩ }
  else u

/-- Which entries tell of the return, with the record before it and the state told (R68). -/
def State.returnsTold (s : State) (a : Byte) (e : EntryId) : Option (MirrorUse × MirrorState) :=
  (s.entryUse e).bind fun u => if u.key.addr = a ∧ u.state = .failed then some (u, u.stateOnReturn) else none

/-- One entry tells its notifying sponsors. -/
def State.tellStep (told : EntryId → Option (MirrorUse × MirrorState)) (s : State) (e : EntryId) : State :=
  match told e with
  | none => s
  | some (u, m) => s.offerTo (.mirrorState e m) u.hearers

theorem tellOf_eq (s : State) (told : EntryId → Option (MirrorUse × MirrorState)) :
    s.tellOf told = (List.finRange 24).foldl (State.tellStep told) s := rfl

theorem setEntry_self (s : State) (e : EntryId) : s.setEntry e (s.entry e) = s := by
  have h : s.entries.set e.val (s.entry e) e.isLt = s.entries := Vector.set_getElem_self e.isLt
  simp only [State.setEntry, h]

theorem updEntry_id {e : EntryId} {f : MirrorUse → MirrorUse} (h : ∀ u, s.entryUse e = some u → f u = u) :
    s.updEntry e f = s := by
  have hm : (s.entryUse e).map f = s.entryUse e := by
    cases hu : s.entryUse e with
    | none => rfl
    | some u => rw [Option.map_some, h u hu]
  rw [State.updEntry, hm]
  exact setEntry_self s e

theorem tellStep_entries (s : State) (told : EntryId → Option (MirrorUse × MirrorState)) (e : EntryId) :
    (s.tellStep told e).entries = s.entries := by
  simp only [State.tellStep]
  split <;> simp

/-- The return of one entry: its record changes, and it tells so. -/
theorem returnEntry_eq (s : State) (a : Byte) (e : EntryId) : s.returnEntry a e
    = (s.updEntry e (MirrorUse.afterReturn s a)).tellStep (s.returnsTold a) e := by
  by_cases h : ∃ u, s.entryUse e = some u ∧ u.key.addr = a ∧ u.state = .failed
  · obtain ⟨u, hu, hr⟩ := h
    have hstate : (if u.value.isSome then MirrorState.stale else .priming) = u.stateOnReturn := by
      cases hv : u.value <;> simp [MirrorUse.stateOnReturn, hv]
    simp only [State.returnEntry, hu, hr, and_self, if_true, hstate, updEntry_eq hu, State.makePollDue, updEntry_setEntry,
      State.tellStep, State.returnsTold, Option.bind_some, MirrorUse.afterReturn]
    rfl
  · have hno : ∀ u, s.entryUse e = some u → ¬ (u.key.addr = a ∧ u.state = .failed) := fun u hu hr => h ⟨u, hu, hr⟩
    have hid : s.updEntry e (MirrorUse.afterReturn s a) = s := updEntry_id fun u hu => if_neg (hno u hu)
    rw [hid]
    simp only [State.returnEntry, State.tellStep, State.returnsTold]
    cases hu : s.entryUse e with
    | none => rfl
    | some u => simp only [Option.bind_some, if_neg (hno u hu)]

/-- The entries after the return of the target: each one by its record (R68). -/
theorem entry_returnEntries (s : State) (a : Byte) (e : EntryId) : (s.returnEntries a).entry e
    = ⟨(s.entry e).issue, (s.entryUse e).map (MirrorUse.afterReturn s a)⟩ := by
  refine foldl_finRange_get (get := State.entry) (f := fun s e => s.returnEntry a e) (P := s.sameClock)
    (g := fun v => ⟨v.issue, v.use.map (MirrorUse.afterReturn s a)⟩)
    (fun b d hb => by simpa [State.sameClock] using hb) (fun b d hb => ?_) (fun b d k hk => ?_) ⟨rfl, rfl⟩ e
  · have hf : MirrorUse.afterReturn b a = MirrorUse.afterReturn s a := by
      funext u
      simp only [MirrorUse.afterReturn, hb.1, hb.2]
    rw [returnEntry_eq, entry_of_entries (tellStep_entries _ _ _), entry_updEntry, if_pos rfl, hf]
    rfl
  · rw [returnEntry_eq, entry_of_entries (tellStep_entries _ _ _), entry_updEntry, if_neg hk]

/-! ### What the return tells (R68) -/

/-- Telling reads and changes none of entries, targets, monitor and engine. -/
theorem tellStep_beside (s : State) (told : EntryId → Option (MirrorUse × MirrorState)) (e : EntryId)
    (es : Vector MirrorEntry 24) (ts : Vector (Option Target) 32) (m : Monitor) (g : Engine) :
    (s.beside es ts m g).tellStep told e = (s.tellStep told e).beside es ts m g := by
  simp only [State.tellStep]
  split
  · rfl
  · exact offerTo_beside s es ts m g _ _

theorem tellOf_beside (s : State) (told : EntryId → Option (MirrorUse × MirrorState))
    (es : Vector MirrorEntry 24) (ts : Vector (Option Target) 32) (m : Monitor) (g : Engine) :
    (s.beside es ts m g).tellOf told = (s.tellOf told).beside es ts m g := by
  simp only [tellOf_eq]
  generalize List.finRange 24 = l
  induction l generalizing s with
  | nil => rfl
  | cons e l ih => rw [List.foldl_cons, List.foldl_cons, tellStep_beside, ih]

/-- What the entries tell is told one after another, whatever their records have become meanwhile: the record before the
return decides. -/
theorem foldl_returnEntry (a : Byte) (ts : Vector (Option Target) 32) (m : Monitor) (g : Engine) (l : List EntryId) :
    ∀ (b : State) (es : Vector MirrorEntry 24), l.Nodup → (∀ e ∈ l, (es.get e).use = s.entryUse e) →
      ∃ es', l.foldl (fun z e => z.returnEntry a e) (b.beside es ts m g)
        = (l.foldl (State.tellStep (s.returnsTold a)) b).beside es' ts m g := by
  induction l with
  | nil => exact fun b es _ _ => ⟨es, rfl⟩
  | cons e l ih =>
    intro b es hl he
    obtain ⟨hel, hl⟩ := List.nodup_cons.1 hl
    have htold : (b.beside es ts m g).returnsTold a e = s.returnsTold a e := by
      simp only [State.returnsTold, ← he e (by simp)]
      rfl
    have hstep : ∀ z : State, z.tellStep ((b.beside es ts m g).returnsTold a) e = z.tellStep (s.returnsTold a) e :=
      fun z => by simp only [State.tellStep, htold]
    let es2 := ((b.beside es ts m g).updEntry e (MirrorUse.afterReturn (b.beside es ts m g) a)).entries
    have hupd : (b.beside es ts m g).updEntry e (MirrorUse.afterReturn (b.beside es ts m g) a)
        = b.beside es2 ts m g := rfl
    rw [List.foldl_cons, List.foldl_cons, returnEntry_eq, hstep, hupd, tellStep_beside]
    refine ih _ es2 hl fun d hd => ?_
    have hne : d ≠ e := fun h => hel (h ▸ hd)
    rw [← he d (by simp [hd])]
    have := entry_updEntry (b.beside es ts m g) e d (MirrorUse.afterReturn (b.beside es ts m g) a)
    rw [if_neg hne] at this
    exact congrArg MirrorEntry.use this

/-! ### The end as a whole (R90) -/

section

variable {t : TargetId} {x : Target}

theorem target_returnEntries (s : State) (a : Byte) : (s.returnEntries a).target = s.target :=
  target_of_targets (by simp)
theorem target_offerTo (s : State) (n : Notice) (ps : List Port) : (s.offerTo n ps).target = s.target :=
  target_of_targets (by simp)
theorem entry_offerTo (s : State) (n : Notice) (ps : List Port) : (s.offerTo n ps).entry = s.entry :=
  entry_of_entries (by simp)

/-- The record of a target that has left quarantine (R90). -/
def Target.released (x : Target) : Target :=
  { x with health := .online, failures := 0, probeDue := none, probeTimer := none, probe := none }

/-- A release touches no lock record, so that the NOT LOCKED completions are those of the state before it (R36). -/
theorem notLockedAll_released (hx : s.target t = some x) : (s.setTarget t (some x.released)).notLockedAll
    = s.notLockedAll.beside s.entries (s.setTarget t (some x.released)).targets s.monitor s.engine := by
  refine notLockedAll_beside (s := s) (ts := (s.setTarget t (some x.released)).targets) s.entries s.monitor s.engine fun u => ?_
  change ((s.setTarget t (some x.released)).target u).map _ = _
  rw [target_setTarget]
  split
  · next e => rw [e, hx]; rfl
  · rfl

theorem quarantineEnd_eq (hx : s.target t = some x) : s.quarantineEnd t
    = ((s.setTarget t (some x.released)).notLockedAll.returnEntries x.addr).offerTo (.targetState x.addr .online 0)
        (s.hears x) := by
  simp only [State.quarantineEnd, hx, updTarget_eq hx]
  refine offerTargetState_eq (y := x.released) ?_ ?_ rfl rfl
  · rw [target_returnEntries, target_notLockedAll]
    simp [Target.released]
  · simp

theorem target_quarantineEnd (hx : s.target t = some x) (u : TargetId) :
    (s.quarantineEnd t).target u = if u = t then some x.released else s.target u := by
  rw [quarantineEnd_eq hx, target_offerTo, target_returnEntries, target_notLockedAll, target_setTarget]

theorem entry_quarantineEnd (hx : s.target t = some x) (e : EntryId) : (s.quarantineEnd t).entry e
    = ⟨(s.entry e).issue, (s.entryUse e).map (MirrorUse.afterReturn s x.addr)⟩ := by
  have hc : s.sameClock (s.setTarget t (some x.released)).notLockedAll := by simp [State.sameClock]
  have hf : MirrorUse.afterReturn (s.setTarget t (some x.released)).notLockedAll x.addr
      = MirrorUse.afterReturn s x.addr := by
    funext u
    simp only [MirrorUse.afterReturn, hc.1, hc.2]
  have he : (s.setTarget t (some x.released)).notLockedAll.entries = s.entries := by simp
  rw [quarantineEnd_eq hx, entry_offerTo, entry_returnEntries, hf, entry_of_entries he, entryUse_of_entries he]

/-- The notices of the end: those of the NOT LOCKED completions, MIRROR STATE by rising entry number, TARGET STATE (R90). -/
theorem quarantineEnd_told (hx : s.target t = some x) : s.quarantineEnd t
    = (State.tellOf { s.notLockedAll with entries := (s.quarantineEnd t).entries, targets := (s.quarantineEnd t).targets }
        (s.returnsTold x.addr)).offerTo (.targetState x.addr .online 0) (s.hears x) := by
  obtain ⟨es, hes⟩ := foldl_returnEntry (s := s) x.addr (s.setTarget t (some x.released)).targets s.monitor s.engine
    (List.finRange 24) s.notLockedAll s.entries (List.nodup_finRange 24) fun _ _ => rfl
  have hret : (s.setTarget t (some x.released)).notLockedAll.returnEntries x.addr
      = (s.notLockedAll.tellOf (s.returnsTold x.addr)).beside es (s.setTarget t (some x.released)).targets
          s.monitor s.engine := by
    rw [notLockedAll_released hx]
    exact hes
  have hend := quarantineEnd_eq hx
  rw [hret] at hend
  have hentries : (s.quarantineEnd t).entries = es := by rw [hend]; simp [State.beside]
  have htargets : (s.quarantineEnd t).targets = (s.setTarget t (some x.released)).targets := by
    rw [hend]; simp only [offerTo_frame]; rfl
  have hbeside : { s.notLockedAll with entries := es, targets := (s.setTarget t (some x.released)).targets }
      = s.notLockedAll.beside es (s.setTarget t (some x.released)).targets s.monitor s.engine := by
    apply State.eq_of_fields <;> simp [State.beside]
  rw [hentries, htargets, hbeside, tellOf_beside]
  exact hend

end

/-- CLEAR QUARANTINE with an address in range, from the supervisor in a session (R91). -/
theorem exec_clearQuarantine {p : Port} {a : Byte} (h : s.takesHeader p = true) (hs : s.supervisor = p)
    (ha : (s.port p).attached = true) (hn : noAddress a = false) :
    exec (.clearQuarantine p a) s = .next ((clearBody a s).1.respond p (clearBody a s).2) :=
  congrArg Host.Outcome.next (command_taken h (standing_supervisor hs ha) (by simp [addressArg_eq, hn]))

/-- Settles O37. -/
theorem quarantineEnd : Obligations.QuarantineEnd := by
  refine ⟨fun s p a h hs ha hn => ⟨fun hnone => ?_, fun t x hl => ?_⟩, fun s t x y hx hy => ?_⟩
  · rw [exec_clearQuarantine h hs ha hn]
    simp only [clearBody, targetAt_eq_none.1 hnone]
    rfl
  · obtain ⟨-, hx, -⟩ := lookup_eq_some hl
    rw [exec_clearQuarantine h hs ha hn]
    simp only [clearBody, hl, updTarget_eq hx]
    refine ⟨fun hh => ?_, fun hh => ?_, fun hh => ?_⟩ <;> simp only [hh] <;> rfl
  · have hy : y = x.released := hy
    refine ⟨?_, ?_, fun u hu => ?_, fun e he => ?_, fun e u hu ha hf hp => ?_, quarantineEnd_told hx⟩
    · apply State.eq_of_fields <;> simp
    · rw [target_quarantineEnd hx, if_pos rfl, hy]
    · rw [target_quarantineEnd hx, if_neg hu]
    · have hsame : (s.entryUse e).map (MirrorUse.afterReturn s x.addr) = s.entryUse e := by
        cases hu : s.entryUse e with
        | none => rfl
        | some u =>
          have hno : ¬ (u.key.addr = x.addr ∧ u.state = .failed) := fun hr => (he u hu).elim (· hr.1) (· hr.2)
          rw [Option.map_some, MirrorUse.afterReturn, if_neg hno]
      rw [entry_quarantineEnd hx, hsame]
      rfl
    · rw [entry_quarantineEnd hx, hu, Option.map_some, MirrorUse.afterReturn, if_pos ⟨ha, hf⟩, hp]
      rfl

end Sys2Proof.Machine

/-! ## Transfers lost to another master (O51) -/

namespace Sys2Proof.Machine

open Sys2Proof

variable {s : State} {f : Transfer}

/-- The device as a loss leaves it before the loss reaches the block that asked for the transfer: the engine IDLE, the monitor
FOREIGN (R124). -/
def State.afterLoss (s : State) (lines : Lines) : State := { s with engine := .idle }.madeForeign lines

theorem afterLoss_eq (s : State) (lines : Lines) : (s.setEngine .idle).reachForeign lines = s.afterLoss lines :=
  reachForeign_eq_madeForeign lines

theorem afterLoss_frame (s : State) (lines : Lines) : (s.afterLoss lines).params = s.params
    ∧ (s.afterLoss lines).now = s.now ∧ (s.afterLoss lines).slots = s.slots ∧ (s.afterLoss lines).entries = s.entries
    ∧ (s.afterLoss lines).targets = s.targets := by
  rw [← afterLoss_eq]
  simp

theorem slot_afterLoss (s : State) (lines : Lines) : (s.afterLoss lines).slot = s.slot :=
  slot_of_slots (by simp [afterLoss_frame])
theorem request_afterLoss (s : State) (lines : Lines) : (s.afterLoss lines).request = s.request :=
  request_of_slots (by simp [afterLoss_frame])
theorem entry_afterLoss (s : State) (lines : Lines) : (s.afterLoss lines).entry = s.entry :=
  entry_of_entries (by simp [afterLoss_frame])
theorem target_afterLoss (s : State) (lines : Lines) : (s.afterLoss lines).target = s.target :=
  target_of_targets (by simp [afterLoss_frame])
theorem targetAt_afterLoss (s : State) (lines : Lines) : (s.afterLoss lines).targetAt = s.targetAt :=
  targetAt_of_targets (by simp [afterLoss_frame])

/-! ### The events that bring a loss -/

/-- A loss that the transfer's shape allows is one that ARBITRATION_LOSS takes (R124, R126). -/
theorem losesAfter_of {sh : Shape} {written : Nat} {ack : Bool}
    (hw : written = 0 ∨ ack = true ∧ sh.kind = .write ∧ written < sh.write)
    (hk : sh.kind = .read ∨ sh.kind = .probe → ack = false) (hf : s.flagged f → ack = false) :
    sh.losesAfter (s.abortStands f) ⟨ack, written, []⟩ = true := by
  have hearly : s.abortStands f = false ∨ ack = false := by
    rw [← Bool.not_eq_true, abortStands_iff_flagged]
    tauto
  simp only [Shape.losesAfter]
  cases hkind : sh.kind with
  | write => rcases hw with rfl | ⟨rfl, -, hlt⟩ <;> simp_all
  | read => simp_all
  | indexedRead => simp_all
  | probe => simp_all

theorem exec_loss_onBus {lines : Lines} {written : Nat} {ack : Bool} {sh : Shape} (hr : s.inReset = false)
    (he : s.engine = .transfer f) (hm : s.monitor.state = .owned) (ht : f.stretch = none) (hl : lines = ⟨true, false⟩)
    (hsh : s.shape f.work = some sh) (hloses : sh.losesAfter (s.abortStands f) ⟨ack, written, []⟩ = true) :
    exec (.arbitrationLoss ⟨ack, written, []⟩) s = .next (s.loseTransfer f.work lines written ack) := by
  have hbus : s.onBus = some f := by simp [State.onBus, he, hm, ht]
  change s.event _ = _
  rw [event_taken hr, hl]
  simp only [hbus, hsh, Option.any_some, hloses, if_true]
  rfl

theorem exec_loss_beforeStart {c : Instr} {lines : Lines} (hr : s.inReset = false) (he : s.engine = .transfer f)
    (hm : s.monitor.state = .free)
    (h : lines = ⟨true, false⟩ ∧ (c = .foreignStart ∨ c = .lineActivityBeforeStart .fda)
      ∨ lines = ⟨false, true⟩ ∧ c = .lineActivityBeforeStart .fcl) :
    exec c s = .next (s.loseTransfer f.work lines 0 false) := by
  have hwait : s.beforeStart = some f := by simp [State.beforeStart, he, hm]
  rcases h with ⟨rfl, rfl | rfl⟩ | ⟨rfl, rfl⟩ <;> refine (event_taken hr _).trans ?_
  · have hobs : s.observes = true := by simp [State.observes, he, hm]
    simp only [State.observeStart, hobs, if_true, hwait]
    rfl
  · simp only [hwait]
    rfl
  · simp only [hwait]

/-! ### What becomes of the work -/

/-- The slot of a lost transfer with the loss counted (R44). -/
def State.countLoss (z : State) (n : SlotId) (r : Request) : State :=
  z.setSlot n ⟨(z.slot n).issue, some { r with losses := r.losses + 1 }⟩

/-- Whether a request is one that completes TARGET QUARANTINED: no PROBE, and to a target in quarantine (R44). -/
def State.quarantineTakes (z : State) (r : Request) : Prop :=
  r.desc.kind ≠ .probe ∧ ∃ x, z.targetAt r.desc.target = some x ∧ x.health = .quarantined

theorem quarantineTakes_iff {z : State} {r : Request} : z.quarantineTakes r ↔
    ((z.targetAt r.desc.target).any (fun x => x.health == .quarantined) && r.desc.kind != .probe) = true := by
  simp [State.quarantineTakes, Option.any_eq_true, and_comm]

theorem requeue_countLoss (z : State) (n : SlotId) (r : Request) : (z.countLoss n r).requeue n
    = z.setSlot n ⟨(z.slot n).issue, some (Request.promotedIfDue { r with losses := r.losses + 1, state := .queued } z)⟩ := by
  rw [State.requeue, State.countLoss, updRequest_setSlot, aged_eq_promotedIfDue (s := z) (a := z.setSlot n _) rfl rfl]

section

variable {z : State} {n : SlotId} {r : Request}

/-- A request lost with abort-pending set completes ABORTED (R44). -/
theorem loseRequest_aborted (hr : z.request n = some r) (h : r.abortPending = true) (b : Nat) (a : Bool) :
    z.loseRequest n b a = (z.countLoss n r).deliver (.request n) ⟨.aborted, 0, [], a⟩ := by
  simp only [State.loseRequest, hr, updRequest_eq hr, h, if_true, State.countLoss]

/-- A lost orphan completes, and so does a request lost at the limit (R44, R45). -/
theorem loseRequest_contended (hr : z.request n = some r) (h : r.abortPending = false)
    (hc : r.orphan = true ∨ ¬ z.quarantineTakes r ∧ z.params.lossLimit ≤ r.losses + 1) (b : Nat) (a : Bool) :
    z.loseRequest n b a = (z.countLoss n r).deliver (.request n) ⟨.busContended, b, [], a⟩ := by
  simp only [State.loseRequest, hr, updRequest_eq hr, h, Bool.false_eq_true, if_false, State.countLoss]
  cases ho : r.orphan with
  | true => rfl
  | false =>
    obtain ⟨hq, hlim⟩ := hc.resolve_left (by simp [ho])
    rw [quarantineTakes_iff] at hq
    rw [if_neg Bool.false_ne_true, if_neg hq, if_neg (Nat.not_lt.2 hlim)]

/-- A request lost on a target in quarantine completes TARGET QUARANTINED (R44). -/
theorem loseRequest_quarantined (hr : z.request n = some r) (h : r.abortPending = false) (ho : r.orphan = false)
    (hq : z.quarantineTakes r) (b : Nat) (a : Bool) :
    z.loseRequest n b a = (z.countLoss n r).completeSlot n (Result.without .targetQuarantined) := by
  simp only [State.loseRequest, hr, updRequest_eq hr, h, ho, Bool.false_eq_true, if_false, State.countLoss]
  exact if_pos (quarantineTakes_iff.1 hq)

/-- A request lost below the limit returns to QUEUED (R44). -/
theorem loseRequest_requeued (hr : z.request n = some r) (h : r.abortPending = false) (ho : r.orphan = false)
    (hq : ¬ z.quarantineTakes r) (hlim : r.losses + 1 < z.params.lossLimit) (b : Nat) (a : Bool) :
    z.loseRequest n b a = (z.countLoss n r).requeue n := by
  rw [quarantineTakes_iff] at hq
  simp only [State.loseRequest, hr, updRequest_eq hr, h, ho, Bool.false_eq_true, if_false, State.countLoss, if_neg hq,
    if_pos hlim]

end

/-- A lost poll that stays pending (R64). -/
theorem repend_eq {z : State} {e : EntryId} {i : Byte} {u : MirrorUse} (he : z.entry e = ⟨i, some u⟩)
    (hu : u.state ≠ .failed) (m : Maint) : z.repend e i m = z.setEntry e ⟨i, some { u with
      pending := some (u.pending.getD (Maint.promotedIfDue { m with losses := m.losses + 1, started := true } z))
      dueAfterRun := none }⟩ := by
  have huse : z.entryUse e = some u := by simp [State.entryUse, he]
  have hissue : (z.entry e).issue = i := by rw [he]
  have hlost : Maint.lost z m = Maint.promotedIfDue { m with losses := m.losses + 1, started := true } z :=
    maint_aged_eq_promotedIfDue rfl rfl _
  simp only [State.repend, huse, hissue, hu, ne_eq, not_false_iff, and_self, if_true, updEntry_eq huse, hlost]
  cases u.pending <;> rfl

/-- A lost poll of an ended use, or of an entry FAILED meanwhile, is discarded (R64). -/
theorem repend_discarded {z : State} {e : EntryId} {i : Byte} (h : ∀ u, z.entry e = ⟨i, some u⟩ → u.state = .failed)
    (m : Maint) : z.repend e i m = z := by
  simp only [State.repend]
  split
  · rfl
  · next u hu =>
    split
    · next hc =>
      obtain ⟨hi, hf⟩ := hc
      exact absurd (h u (by rw [← hi, ← hu]; rfl)) hf
    · rfl

theorem setTarget_self (z : State) (t : TargetId) : z.setTarget t (z.target t) = z := by
  have h : z.targets.set t.val (z.target t) t.isLt = z.targets := Vector.set_getElem_self t.isLt
  simp only [State.setTarget, h]

/-- A lost probe stays pending while its target is QUARANTINED (R89). -/
theorem reprobe_eq {z : State} {t : TargetId} {x : Target} (hx : z.target t = some x) (hq : x.health = .quarantined)
    (m : Maint) : z.reprobe t m = z.setTarget t (some { x with
      probe := some (Maint.promotedIfDue { m with losses := m.losses + 1, started := true } z) }) := by
  have hlost : Maint.lost z m = Maint.promotedIfDue { m with losses := m.losses + 1, started := true } z :=
    maint_aged_eq_promotedIfDue rfl rfl _
  simp only [State.reprobe, updTarget_eq hx, hq, if_true, hlost]

theorem reprobe_discarded {z : State} {t : TargetId} (h : ∀ x, z.target t = some x → x.health ≠ .quarantined) (m : Maint) :
    z.reprobe t m = z := by
  cases hx : z.target t with
  | none =>
    have hm : (z.target t).map (fun x => if x.health = .quarantined then { x with probe := some (Maint.lost z m) } else x)
        = z.target t := by rw [hx]; rfl
    rw [State.reprobe, State.updTarget, hm]
    exact setTarget_self z t
  | some x =>
    rw [State.reprobe, updTarget_eq hx, if_neg (h x hx), ← hx]
    exact setTarget_self z t

/-! ### The loss as a whole -/

theorem loseTransfer_request (s : State) (n : SlotId) (lines : Lines) (b : Nat) (a : Bool) :
    s.loseTransfer (.request n) lines b a = ((s.afterLoss lines).loseRequest n b a).settle := by
  simp only [State.loseTransfer, afterLoss_eq]

/-- A poll lost below the limit goes back to waiting, and one lost at it completes (R45). -/
theorem loseTransfer_poll (s : State) (e : EntryId) (i : Byte) (k : Key) (m : Maint) (lines : Lines) (b : Nat) (a : Bool) :
    s.loseTransfer (.poll e i k m) lines b a = State.settle (if m.losses + 1 < s.params.lossLimit
      then (s.afterLoss lines).repend e i m
      else (s.afterLoss lines).deliver (.poll e i k m) ⟨.busContended, 0, [], a⟩) := by
  simp only [State.loseTransfer, afterLoss_eq]

theorem loseTransfer_probe (s : State) (t : TargetId) (x : Byte) (m : Maint) (lines : Lines) (b : Nat) (a : Bool) :
    s.loseTransfer (.probe t x m) lines b a = State.settle (if m.losses + 1 < s.params.lossLimit
      then (s.afterLoss lines).reprobe t m
      else (s.afterLoss lines).deliver (.probe t x m) ⟨.busContended, 0, [], a⟩) := by
  simp only [State.loseTransfer, afterLoss_eq]

/-- A promotion after the loss is the promotion before it: the loss moves neither clock nor limit. -/
theorem promotedIfDue_afterLoss (s : State) (lines : Lines) :
    (∀ r : Request, r.promotedIfDue (s.afterLoss lines) = r.promotedIfDue s)
      ∧ ∀ m : Maint, m.promotedIfDue (s.afterLoss lines) = m.promotedIfDue s := by
  obtain ⟨hp, hn, -⟩ := afterLoss_frame s lines
  have hc := callsForPromotion_congr hp hn
  exact ⟨fun r => by simp only [Request.promotedIfDue, hc, hn], fun m => by simp only [Maint.promotedIfDue, hc, hn]⟩

theorem quarantineTakes_afterLoss (s : State) (lines : Lines) (r : Request) :
    (s.afterLoss lines).quarantineTakes r ↔ s.quarantineTakes r := by
  simp only [State.quarantineTakes, targetAt_afterLoss]

/-- Settles O51: each event of a loss is `loseTransfer`, and what it does to the work goes by the sort of work. -/
theorem lostTransfers : Obligations.LostTransfers := by
  intro s f c lines written ack hr he hevent lost
  have hlost : lost = s.afterLoss lines := rfl
  clear_value lost
  subst hlost
  have hexec : exec c s = .next (s.loseTransfer f.work lines written ack) := by
    rcases hevent with ⟨hm, ht, hl, rfl, sh, hsh, hw, hk, hf⟩ | ⟨hm, rfl, rfl, hl⟩
    · exact exec_loss_onBus hr he hm ht hl hsh (losesAfter_of hw hk hf)
    · exact exec_loss_beforeStart hr he hm hl
  rw [hexec]
  obtain ⟨hparams, -⟩ := afterLoss_frame s lines
  obtain ⟨hpromr, hpromm⟩ := promotedIfDue_afterLoss s lines
  refine ⟨fun n r hw hreq => ?_, fun e i k m hw => ?_, fun t a m hw => ?_⟩
  · intro counted quarantined
    have hreq : (s.afterLoss lines).request n = some r := by rw [request_afterLoss, hreq]
    have hcounted : (s.afterLoss lines).countLoss n r = counted := by rw [State.countLoss, slot_afterLoss]
    have hq : (s.afterLoss lines).quarantineTakes r ↔ quarantined := quarantineTakes_afterLoss s lines r
    rw [hw, loseTransfer_request]
    refine ⟨fun ha => ?_, fun ha hc => ?_, fun ha ho hqu => ?_, fun ha ho hqu hlim => ?_⟩
    · rw [loseRequest_aborted hreq ha, hcounted]
    · rw [loseRequest_contended hreq ha (by rwa [hq, hparams]), hcounted]
    · rw [loseRequest_quarantined hreq ha ho (hq.2 hqu), hcounted]
      rfl
    · rw [loseRequest_requeued hreq ha ho (mt hq.1 hqu) (by rwa [hparams]), requeue_countLoss, slot_afterLoss, hpromr]
  · rw [hw, loseTransfer_poll]
    refine ⟨fun hlim => by rw [if_neg (Nat.not_lt.2 hlim)], fun hlim => ⟨fun u hu hf => ?_, fun hf => ?_⟩⟩
    · rw [if_pos hlim, repend_eq (by rw [entry_afterLoss, hu]) hf, hpromm]
    · rw [if_pos hlim, repend_discarded (by rwa [entry_afterLoss])]
  · rw [hw, loseTransfer_probe]
    refine ⟨fun hlim => by rw [if_neg (Nat.not_lt.2 hlim)], fun hlim => ⟨fun x hx hq => ?_, fun hq => ?_⟩⟩
    · rw [if_pos hlim, reprobe_eq (by rw [target_afterLoss, hx]) hq, hpromm]
    · rw [if_pos hlim, reprobe_discarded (by rwa [target_afterLoss])]

end Sys2Proof.Machine

/-! ## What is eligible and what is offered (O46) -/

namespace Sys2Proof.Machine

open Sys2Proof

variable {s : State} {p : Port} {n : SlotId}

/-! ### The conditions of Table 2-2 in the words of the tables -/

theorem holderAt_eq_some {a : Byte} {q : Port} :
    s.holderAt a = some q ↔ ∃ x h, s.targetAt a = some x ∧ x.lock = some h ∧ h.port = q := by
  simp [State.holderAt, Option.bind_eq_some_iff]

theorem holderAt_eq_none {a : Byte} : s.holderAt a = none ↔ ∀ x, s.targetAt a = some x → x.lock = none := by
  simp [State.holderAt, Option.bind_eq_none_iff]

theorem waitsAt_eq_false {a : Byte} : s.waitsAt p a = false ↔ ∀ x, s.targetAt a = some x → x.awaits p = false := by
  simp [State.waitsAt, Option.any_eq_false]

theorem lockHolds_iff {d : Descriptor} : s.lockHolds p d = true ↔
    ∀ x h, s.targetAt d.target = some x → x.lock = some h → h.port = p := by
  simp only [State.lockHolds, Option.all_eq_true, beq_iff_eq, holderAt_eq_some]
  exact ⟨fun h x k hx hk => h _ ⟨x, k, hx, hk, rfl⟩, fun h q ⟨x, k, hx, hk, hq⟩ => hq ▸ h x k hx hk⟩

theorem ownershipHolds_iff {d : Descriptor} : s.ownershipHolds p d = true ↔
    (d.underLock = true → ∃ x h, s.targetAt d.target = some x ∧ x.lock = some h ∧ h.port = p) := by
  rw [← holderAt_eq_some, State.ownershipHolds]
  cases d.underLock <;> simp

/-- Order and fence, where the slots older than a slot are known (R32, R33). -/
theorem queue_conditions_iff {older younger : List SlotId} {d : Descriptor} (h : s.list p = older ++ n :: younger)
    (hn : n ∉ older) : (s.orderHolds p n d = true ∧ s.fenceHolds p n d = true) ↔
      (∀ m ∈ older, ∀ q, s.request m = some q → q.desc.target ≠ d.target ∧ q.desc.fence = false)
        ∧ (d.fence = true → older = []) := by
  rw [orderHolds_iff, fenceHolds_iff, older_eq h hn]
  exact ⟨fun ⟨ho, hf, he⟩ => ⟨fun m hm q hq => ⟨ho m hm q hq, hf m hm q hq⟩, he⟩,
    fun ⟨h, he⟩ => ⟨fun m hm q hq => (h m hm q hq).1, fun m hm q hq => (h m hm q hq).2, he⟩⟩

theorem eligible_iff_table {older younger : List SlotId} (h : s.list p = older ++ n :: younger) (hn : n ∉ older) :
    s.eligible p n = true ↔ ∃ r, s.request n = some r ∧ r.state = .queued
      ∧ (∀ m ∈ older, ∀ q, s.request m = some q → q.desc.target ≠ r.desc.target ∧ q.desc.fence = false)
      ∧ (r.desc.fence = true → older = [])
      ∧ (∀ x h, s.targetAt r.desc.target = some x → x.lock = some h → h.port = p)
      ∧ (r.desc.underLock = true → ∃ x h, s.targetAt r.desc.target = some x ∧ x.lock = some h ∧ h.port = p) := by
  rw [eligible_iff]
  refine exists_congr fun r => and_congr_right fun _ => and_congr_right fun _ => ?_
  rw [← and_assoc, queue_conditions_iff h hn, lockHolds_iff, ownershipHolds_iff, and_assoc]

theorem notLockedDue_iff_table {older younger : List SlotId} (h : s.list p = older ++ n :: younger) (hn : n ∉ older) :
    s.notLockedDue p n = true ↔ ∃ r, s.request n = some r ∧ r.state = .queued ∧ r.desc.underLock = true
      ∧ (∀ m ∈ older, ∀ q, s.request m = some q → q.desc.target ≠ r.desc.target ∧ q.desc.fence = false)
      ∧ (r.desc.fence = true → older = [])
      ∧ ∀ x, s.targetAt r.desc.target = some x → x.lock = none ∧ x.awaits p = false := by
  rw [notLockedDue_iff]
  refine exists_congr fun r => and_congr_right fun _ => and_congr_right fun _ => and_congr_right fun _ => ?_
  rw [← and_assoc, queue_conditions_iff h hn, and_assoc, holderAt_eq_none, waitsAt_eq_false]
  simp only [← forall_and]

/-! ### What is offered -/

/-- A port offers its oldest eligible slot (R31). -/
theorem headCandidate_iff : s.headCandidate p = some n ↔
    ∃ older younger, s.list p = older ++ n :: younger ∧ s.eligible p n = true ∧ ∀ m ∈ older, s.eligible p m = false := by
  simp only [State.headCandidate, List.find?_eq_some_iff_append, Bool.not_eq_true']
  exact ⟨fun ⟨he, older, younger, hl, ho⟩ => ⟨older, younger, hl, he, ho⟩,
    fun ⟨older, younger, hl, he, ho⟩ => ⟨he, older, younger, hl, ho⟩⟩

theorem probeItem_eq_some {t : TargetId} {w : Work} : s.probeItem t = some w ↔
    ∃ x m, s.target t = some x ∧ x.lock = none ∧ x.probe = some m ∧ w = .probe t x.addr m := by
  simp only [State.probeItem]
  cases s.target t with
  | none => simp
  | some x => cases h : x.lock <;> simp [h, eq_comm]

theorem pollItem_eq_some {e : EntryId} {w : Work} : s.pollItem e = some w ↔
    ∃ u m, s.entryUse e = some u ∧ s.holderAt u.key.addr = none ∧ u.pending = some m
      ∧ w = .poll e (s.entry e).issue u.key m := by
  simp only [State.pollItem]
  cases s.entryUse e with
  | none => simp
  | some u => cases h : s.holderAt u.key.addr <;> simp [h, eq_comm]

theorem mem_maintenanceItems {w : Work} : w ∈ s.maintenanceItems ↔
    (∃ t, s.probeItem t = some w) ∨ ∃ e, s.pollItem e = some w := by
  simp [State.maintenanceItems]

theorem probe_mem_maintenanceItems {t : TargetId} {a : Byte} {m : Maint} : .probe t a m ∈ s.maintenanceItems ↔
    ∃ x, s.target t = some x ∧ x.addr = a ∧ x.lock = none ∧ x.probe = some m := by
  simp only [mem_maintenanceItems, probeItem_eq_some, pollItem_eq_some, reduceCtorEq, and_false, exists_false, or_false,
    Work.probe.injEq]
  constructor
  · rintro ⟨_, x, _, hx, hl, hp, rfl, rfl, rfl⟩
    exact ⟨x, hx, rfl, hl, hp⟩
  · rintro ⟨x, hx, rfl, hl, hp⟩
    exact ⟨t, x, m, hx, hl, hp, rfl, rfl, rfl⟩

theorem poll_mem_maintenanceItems {e : EntryId} {i : Byte} {k : Key} {m : Maint} : .poll e i k m ∈ s.maintenanceItems ↔
    ∃ u, s.entry e = ⟨i, some u⟩ ∧ u.key = k ∧ u.pending = some m
      ∧ ∀ x, s.targetAt k.addr = some x → x.lock = none := by
  simp only [mem_maintenanceItems, probeItem_eq_some, pollItem_eq_some, reduceCtorEq, and_false, exists_false, false_or,
    Work.poll.injEq, ← holderAt_eq_none]
  constructor
  · rintro ⟨_, u, _, hu, hl, hp, rfl, rfl, rfl, rfl⟩
    exact ⟨u, by rw [← hu]; rfl, rfl, hp, hl⟩
  · rintro ⟨u, he, rfl, hp, hl⟩
    exact ⟨e, u, m, by rw [State.entryUse, he], hl, hp, rfl, by rw [he], rfl, rfl⟩

/-- The earliest of a list: nothing before it is as early, and nothing after it is earlier. -/
theorem earliest_eq_some {l : List Work} : ∀ {w : Work}, earliest l = some w ↔
    ∃ before after, l = before ++ w :: after ∧ (∀ v ∈ before, w.due < v.due) ∧ ∀ v ∈ after, w.due ≤ v.due := by
  induction l with
  | nil => simp [earliest]
  | cons a l ih =>
    intro w
    simp only [earliest]
    cases hl : earliest l with
    | none =>
      rw [earliest_eq_none.1 hl]
      simp only [Option.some.injEq]
      constructor
      · rintro rfl
        exact ⟨[], [], rfl, by simp, by simp⟩
      · rintro ⟨before, after, h, -⟩
        cases before <;> simp_all
    | some v =>
      obtain ⟨b, c, rfl, hb, hc⟩ := ih.1 hl
      have hv : ∀ u ∈ b ++ v :: c, v.due ≤ u.due := by
        intro u hu
        rcases List.mem_append.1 hu with hu | hu
        · exact (hb u hu).le
        · rcases List.mem_cons.1 hu with rfl | hu
          · exact le_rfl
          · exact hc u hu
      dsimp only
      constructor
      · split
        · next hle =>
          rintro ⟨⟩
          exact ⟨[], b ++ v :: c, rfl, by simp, fun u hu => hle.trans (hv u hu)⟩
        · next hlt =>
          rintro ⟨⟩
          refine ⟨a :: b, c, rfl, fun u hu => ?_, hc⟩
          rcases List.mem_cons.1 hu with rfl | hu
          · exact Nat.lt_of_not_le hlt
          · exact hb u hu
      · rintro ⟨before, after, h, hbefore, hafter⟩
        cases before with
        | nil =>
          obtain ⟨rfl, rfl⟩ := List.cons.inj h
          rw [if_pos (hafter v (by simp))]
        | cons x before =>
          obtain ⟨rfl, htail⟩ := List.cons.inj h
          have hw : earliest (b ++ v :: c) = some w := ih.2 ⟨before, after, htail, fun u hu => hbefore u (by simp [hu]), hafter⟩
          rw [hl] at hw
          cases hw
          rw [if_neg (Nat.not_le.2 (hbefore a (by simp)))]

/-- Probes before polls, and each by rising number (R39). -/
theorem maintenanceItems_ordered (s : State) : s.maintenanceItems.Pairwise Work.precedes := by
  refine List.pairwise_append.2 ⟨?_, ?_, fun v hv w hw => ?_⟩
  · refine List.pairwise_filterMap.2 ((List.pairwise_lt_finRange 32).imp fun hlt v hv w hw => ?_)
    obtain ⟨_, _, -, -, -, rfl⟩ := probeItem_eq_some.1 hv
    obtain ⟨_, _, -, -, -, rfl⟩ := probeItem_eq_some.1 hw
    exact hlt
  · refine List.pairwise_filterMap.2 ((List.pairwise_lt_finRange 24).imp fun hlt v hv w hw => ?_)
    obtain ⟨_, _, -, -, -, rfl⟩ := pollItem_eq_some.1 hv
    obtain ⟨_, _, -, -, -, rfl⟩ := pollItem_eq_some.1 hw
    exact hlt
  · obtain ⟨_, -, hv⟩ := List.mem_filterMap.1 hv
    obtain ⟨_, -, hw⟩ := List.mem_filterMap.1 hw
    obtain ⟨_, _, -, -, -, rfl⟩ := probeItem_eq_some.1 hv
    obtain ⟨_, _, -, -, -, rfl⟩ := pollItem_eq_some.1 hw
    trivial

end Sys2Proof.Machine

/-! ## The NOT LOCKED completions, whatever the state (O46)

No law of the request lists is assumed here: a slot may stand in several lists, or more than once in one. -/

namespace Sys2Proof.Machine

open Sys2Proof

variable {s : State} {p : Port} {n : SlotId} {r : Request}

/-- The result of a NOT LOCKED completion (R14, R36). -/
def Result.notLocked : Result := ⟨.notLocked, 0, []⟩

theorem notLockedAll_eq_foldl (s : State) : s.notLockedAll
    = Port.all.foldl (fun a p => (a.list p).foldl (State.completeIfDue p) a) s := rfl

/-- A state that the completions reach from another: the lists have lost slots at most, and the targets are the same. -/
def State.reaches (s a : State) : Prop := (∀ p, a.list p ⊆ s.list p) ∧ a.targets = s.targets

theorem reaches_completeIfDue {a : State} (h : s.reaches a) (p : Port) (n : SlotId) : s.reaches (a.completeIfDue p n) := by
  refine ⟨fun q m hm => h.1 q ?_, (completeIfDue_targets a p n).trans h.2⟩
  unfold State.completeIfDue at hm
  split at hm
  · exact list_completeSlot_subset a n _ q hm
  · exact hm

/-- What holds of a state and is kept by every single completion that comes up, holds after all of them. -/
theorem notLockedAll_induction {P : State → Prop} (base : P s)
    (step : ∀ a p m, s.reaches a → m ∈ s.list p → P a → P (a.completeIfDue p m)) : P s.notLockedAll := by
  have all : s.reaches s.notLockedAll ∧ P s.notLockedAll := by
    refine List.foldlRecOn (motive := fun a => s.reaches a ∧ P a) Port.all State.notLockedOf
      ⟨⟨fun _ => List.Subset.refl _, rfl⟩, base⟩ fun a ha p _ => ?_
    refine List.foldlRecOn (motive := fun b => s.reaches b ∧ P b) (a.list p) (State.completeIfDue p) ha fun b hb m hm => ?_
    exact ⟨reaches_completeIfDue hb.1 p m, step b p m hb.1 (ha.1.1 p hm) hb.2⟩
  exact all.2

theorem queued_of_notLockedDue (h : s.notLockedDue p n = true) (hr : s.request n = some r) :
    r.state = .queued ∧ r.desc.underLock = true := by
  obtain ⟨r', hr', hq, hu, -⟩ := notLockedDue_iff.1 h
  rw [hr] at hr'
  cases hr'
  exact ⟨hq, hu⟩

/-- A slot that a completion has seen to is due no more (R12, R36). -/
theorem not_due_of_completed {x : Result} (h : s.request n = r.completed x) (p : Port) : s.notLockedDue p n = false := by
  by_contra hd
  rw [Bool.not_eq_false] at hd
  obtain ⟨r', hr', hq, -⟩ := notLockedDue_iff.1 hd
  exact Request.completed_not_queued (o := some r) (x := x) (by rw [Option.bind_some, ← h, hr']) hq

/-- Where nothing is due, nothing happens (R36). -/
theorem notLockedAll_of_none_due (h : ∀ p n, n ∈ s.list p → s.notLockedDue p n = false) : s.notLockedAll = s := by
  refine notLockedAll_induction (P := (· = s)) rfl fun a p m _ hm ha => ?_
  subst ha
  exact completeIfDue_of_not_due (h p m hm)

/-- A request that was completed NOT LOCKED was due, on one port or another (R36). -/
def State.lacksLock (s : State) (n : SlotId) (r : Request) : Prop :=
  r.state = .queued ∧ r.desc.underLock = true
    ∧ ∃ p, n ∈ s.list p ∧ ∀ x, s.targetAt r.desc.target = some x → x.lock = none ∧ x.awaits p = false

/-- Every request stays as it is, or completes NOT LOCKED for want of the lock (R36). -/
theorem request_notLockedAll (hr : s.request n = some r) : s.notLockedAll.request n = some r
    ∨ s.lacksLock n r ∧ s.notLockedAll.request n = r.completed .notLocked := by
  refine notLockedAll_induction (s := s)
    (P := fun a => a.request n = some r ∨ s.lacksLock n r ∧ a.request n = r.completed .notLocked) (.inl hr)
    fun a p m hsa hm ha => ?_
  by_cases hne : n ≠ m
  · rwa [request_completeIfDue_of_ne hne]
  obtain rfl := not_not.1 hne
  cases hd : a.notLockedDue p n with
  | false => rwa [completeIfDue_of_not_due hd]
  | true =>
    have har : a.request n = some r := ha.resolve_right fun hc => by
      rw [not_due_of_completed hc.2 p] at hd
      cases hd
    refine .inr ⟨?_, by rw [completeIfDue_of_due hd, request_completeSlot, if_pos rfl, har]; rfl⟩
    obtain ⟨r', hr', hq, hu, -, -, hh, hw⟩ := notLockedDue_iff.1 hd
    rw [har] at hr'
    cases hr'
    have hat : a.targetAt = s.targetAt := targetAt_of_targets hsa.2
    refine ⟨hq, hu, p, hm, fun x hx => ?_⟩
    rw [← hat] at hx
    exact ⟨holderAt_eq_none.1 hh x hx, waitsAt_eq_false.1 hw x hx⟩

/-! ### What is due completes -/

/-- The slots older than one, after another has left the list. -/
theorem older_subset_of_filter {t : State} {m : SlotId} (hne : n ≠ m)
    (hl : t.list p = s.list p ∨ t.list p = (s.list p).filter (· != m)) : t.older p n ⊆ s.older p n := by
  rcases hl with hl | hl
  · rw [State.older, hl]
    exact List.Subset.refl _
  · rw [State.older, hl, List.takeWhile_filter, State.older]
    have hp : (fun a : SlotId => !(a != m) || a != n) = (· != n) := by
      funext a
      by_cases h : a = m
      · simp [h, Ne.symm hne]
      · simp [h]
    rw [hp]
    exact fun k hk => (List.mem_filter.1 hk).1

/-- A completion of another slot leaves a due one in its list, and due. -/
theorem due_completeIfDue_of_ne {q : Port} {m : SlotId} (hne : n ≠ m) (hn : n ∈ s.list p)
    (hd : s.notLockedDue p n = true) :
    n ∈ (s.completeIfDue q m).list p ∧ (s.completeIfDue q m).notLockedDue p n = true := by
  have hl : (s.completeIfDue q m).list p = s.list p ∨ (s.completeIfDue q m).list p = (s.list p).filter (· != m) := by
    unfold State.completeIfDue
    split
    · cases hr : s.request m with
      | none => simp [State.completeSlot, hr]
      | some r' =>
        rw [list_completeSlot hr]
        split
        · exact .inr rfl
        · exact .inl rfl
    · exact .inl rfl
  have ht := completeIfDue_targets s q m
  refine ⟨?_, notLockedDue_mono hd (fun r hr hq => ⟨r, ?_, hq, rfl⟩) (older_subset_of_filter hne hl)
    (fun k _ r hr => ?_) (fun a ha => ?_)⟩
  · rcases hl with hl | hl <;> simp [hl, hn, hne]
  · rw [request_completeIfDue_of_ne hne, hr]
  · by_cases hk : k = m
    · subst hk
      unfold State.completeIfDue at hr
      split at hr
      · rw [request_completeSlot, if_pos rfl, Option.bind_eq_some_iff] at hr
        obtain ⟨r', hr', hc⟩ := hr
        refine ⟨r', hr', ?_⟩
        simp only [Request.completed] at hc
        split at hc <;> cases hc
        rfl
      · exact ⟨r, hr, rfl⟩
    · rw [request_completeIfDue_of_ne hk] at hr
      exact ⟨r, hr, rfl⟩
  · rw [holderAt_of_targets ht, waitsAt_of_targets ht]
    exact ⟨ha, id⟩

/-- A request that has been completed NOT LOCKED, and one that stands in a list and is due there. -/
def State.seenTo (a : State) (n : SlotId) (r : Request) : Prop := a.request n = r.completed .notLocked
def State.standsDue (a : State) (p : Port) (n : SlotId) (r : Request) : Prop :=
  a.request n = some r ∧ n ∈ a.list p ∧ a.notLockedDue p n = true

theorem seenTo_completeIfDue (h : s.seenTo n r) (q : Port) (m : SlotId) : (s.completeIfDue q m).seenTo n r := by
  by_cases hne : n ≠ m
  · rwa [State.seenTo, request_completeIfDue_of_ne hne]
  · obtain rfl := not_not.1 hne
    rwa [completeIfDue_of_not_due (not_due_of_completed h q)]

/-- A due request stands due until its own completion comes up. -/
theorem standsDue_completeIfDue (h : s.standsDue p n r) (q : Port) (m : SlotId) :
    (s.completeIfDue q m).seenTo n r ∨ (s.completeIfDue q m).standsDue p n r := by
  obtain ⟨hr, hn, hd⟩ := h
  by_cases hne : n ≠ m
  · obtain ⟨hn', hd'⟩ := due_completeIfDue_of_ne (q := q) hne hn hd
    exact .inr ⟨by rw [request_completeIfDue_of_ne hne, hr], hn', hd'⟩
  · obtain rfl := not_not.1 hne
    cases hq : s.notLockedDue q n with
    | false => rw [completeIfDue_of_not_due hq]; exact .inr ⟨hr, hn, hd⟩
    | true => exact .inl (by rw [State.seenTo, completeIfDue_of_due hq, request_completeSlot, if_pos rfl, hr]; rfl)

/-- A pass over a list that holds the slot completes it. -/
theorem foldl_seenTo (l : List SlotId) : ∀ s : State, s.seenTo n r ∨ n ∈ l ∧ s.standsDue p n r →
    (l.foldl (State.completeIfDue p) s).seenTo n r := by
  induction l with
  | nil => simp
  | cons m l ih =>
    intro s h
    refine ih _ ?_
    rcases h with h | ⟨hn, h⟩
    · exact .inl (seenTo_completeIfDue h p m)
    · rcases List.mem_cons.1 hn with rfl | hn
      · obtain ⟨hr, -, hd⟩ := h
        exact .inl (by rw [State.seenTo, completeIfDue_of_due hd, request_completeSlot, if_pos rfl, hr]; rfl)
      · exact (standsDue_completeIfDue h p m).imp_right fun h => ⟨hn, h⟩

/-- A pass over any list leaves a due request due, or completes it. -/
theorem foldl_standsDue {q : Port} (l : List SlotId) (h : s.seenTo n r ∨ s.standsDue p n r) :
    (l.foldl (State.completeIfDue q) s).seenTo n r ∨ (l.foldl (State.completeIfDue q) s).standsDue p n r := by
  refine List.foldlRecOn (motive := fun a => a.seenTo n r ∨ a.standsDue p n r) l (State.completeIfDue q) h fun a ha m _ => ?_
  rcases ha with ha | ha
  · exact .inl (seenTo_completeIfDue ha q m)
  · exact standsDue_completeIfDue ha q m

/-- What is due completes NOT LOCKED (R36). -/
theorem request_notLockedAll_of_due (hn : n ∈ s.list p) (hd : s.notLockedDue p n = true) (hr : s.request n = some r) :
    s.notLockedAll.request n = r.completed .notLocked := by
  have pass : ∀ (l : List Port) (a : State), a.seenTo n r ∨ p ∈ l ∧ a.standsDue p n r →
      (l.foldl State.notLockedOf a).seenTo n r := by
    intro l
    induction l with
    | nil => simp
    | cons q l ih =>
      intro a h
      refine ih _ ?_
      rcases h with h | ⟨hp, h⟩
      · exact .inl (foldl_seenTo (p := q) _ a (.inl h))
      · rcases List.mem_cons.1 hp with rfl | hp
        · exact .inl (foldl_seenTo _ a (.inr ⟨h.2.1, h⟩))
        · exact (foldl_standsDue _ (.inr h)).imp_right fun h => ⟨hp, h⟩
  exact pass Port.all s (.inr ⟨Port.mem_all p, hr, hn, hd⟩)

/-- One due request, and no other QUEUED request UNDER LOCK in a list: its completion is all that happens (R36). -/
theorem notLockedAll_of_only (hn : n ∈ s.list p) (hd : s.notLockedDue p n = true) (hr : s.request n = some r)
    (honly : ∀ q m v, m ∈ s.list q → s.request m = some v → v.state = .queued → v.desc.underLock = true → m = n) :
    s.notLockedAll = s.completeSlot n .notLocked := by
  have hcompleted : (s.completeSlot n .notLocked).request n = r.completed .notLocked := by simp [hr]
  have hfate : s.notLockedAll = s ∨ s.notLockedAll = s.completeSlot n .notLocked := by
    refine notLockedAll_induction (P := fun a => a = s ∨ a = s.completeSlot n .notLocked) (.inl rfl) fun a q m _ hm ha => ?_
    cases hdm : a.notLockedDue q m with
    | false => rwa [completeIfDue_of_not_due hdm]
    | true =>
      obtain ⟨v, hv, -⟩ := notLockedDue_iff.1 hdm
      obtain ⟨hq, hu⟩ := queued_of_notLockedDue hdm hv
      rcases ha with rfl | rfl
      · obtain rfl := honly q m v hm hv hq hu
        exact .inr (completeIfDue_of_due hdm)
      · by_cases hne : m = n
        · subst hne
          rw [not_due_of_completed hcompleted q] at hdm
          cases hdm
        · rw [request_completeSlot, if_neg hne] at hv
          exact absurd (honly q m v hm hv hq hu) hne
  refine hfate.resolve_left fun h => ?_
  have hz := request_notLockedAll_of_due hn hd hr
  rw [h] at hz
  rw [not_due_of_completed hz p] at hd
  cases hd

/-- Settles O46: what is offered, condition by condition, and the NOT LOCKED completions as one pass over the lists. -/
theorem eligibleWorkIsOffered : Obligations.EligibleWorkIsOffered := by
  refine ⟨fun s p n older younger h hn => eligible_iff_table h hn, fun s p n => headCandidate_iff,
    fun s t a m => probe_mem_maintenanceItems, fun s e i k m => poll_mem_maintenanceItems,
    fun s w => earliest_eq_some, maintenanceItems_ordered, fun s p n older younger h hn => notLockedDue_iff_table h hn,
    fun s => ?_⟩
  refine ⟨?_, rfl, notLockedAll_eq_foldl s, notLockedAll_of_none_due,
    fun p n r hn hd hr => ⟨notLockedAll_of_only hn hd hr, request_notLockedAll_of_due hn hd hr⟩, fun n r hr => ?_⟩
  · apply State.eq_of_fields <;> simp
  · refine (request_notLockedAll hr).imp_right ?_
    rintro ⟨⟨hq, hu, hp⟩, hz⟩
    exact ⟨hq, hu, hp, hz⟩

end Sys2Proof.Machine

/-! ## Passes over the mirror table

A pass writes the record of each entry over and has the entry tell its notifying sponsors; telling reads no record, so a pass
is all the writing and then all the telling. -/

namespace Sys2Proof.Machine

open Sys2Proof

variable {s : State}

/-- The state with the record of every entry in use written over. -/
def State.rewriteEntries (s : State) (f : MirrorUse → MirrorUse) : State :=
  (List.finRange 24).foldl (fun z e => z.updEntry e f) s

theorem entry_rewriteEntries (s : State) (f : MirrorUse → MirrorUse) (e : EntryId) :
    (s.rewriteEntries f).entry e = ⟨(s.entry e).issue, (s.entryUse e).map f⟩ :=
  foldl_finRange_get (get := State.entry) (f := fun z e => z.updEntry e f) (P := fun _ => True)
    (g := fun v => ⟨v.issue, v.use.map f⟩) (fun _ _ h => h) (fun b d _ => by rw [entry_updEntry, if_pos rfl]; rfl)
    (fun b d k hk => by rw [entry_updEntry, if_neg hk]) trivial e

/-- Writing the entries over changes nothing else. -/
theorem rewriteEntries_eq (s : State) (f : MirrorUse → MirrorUse) :
    s.rewriteEntries f = s.beside (s.rewriteEntries f).entries s.targets s.monitor s.engine :=
  List.foldlRecOn (motive := fun z : State => z = s.beside z.entries s.targets s.monitor s.engine) _ _ rfl
    fun z hz e _ => by rw [hz]; rfl

theorem tellOf_entries (s : State) (told : EntryId → Option (MirrorUse × MirrorState)) :
    (s.tellOf told).entries = s.entries :=
  foldl_keep State.entries (fun z e => tellStep_entries z told e) _ _

theorem entry_tellOf (s : State) (told : EntryId → Option (MirrorUse × MirrorState)) : (s.tellOf told).entry = s.entry :=
  entry_of_entries (tellOf_entries s told)

/-- Telling and writing bear on different blocks. -/
theorem updEntry_tellStep (s : State) (told : EntryId → Option (MirrorUse × MirrorState)) (d e : EntryId)
    (f : MirrorUse → MirrorUse) : (s.tellStep told d).updEntry e f = (s.updEntry e f).tellStep told d := by
  have hk := tellStep_beside s told d s.entries s.targets s.monitor s.engine
  have hw := tellStep_beside s told d (s.updEntry e f).entries s.targets s.monitor s.engine
  change s.tellStep told d = _ at hk
  change (s.updEntry e f).tellStep told d = _ at hw
  rw [hw, hk]
  rfl

/-- A pass over the mirror table whose step writes one record over and has the entry tell, both by its record before the pass,
is the writing and then the telling (R66, R67). -/
theorem pass_eq_tellOf {step : State → EntryId → State} {write : MirrorUse → MirrorUse}
    {told : EntryId → Option (MirrorUse × MirrorState)}
    (hstep : ∀ z e, s.sameClock z → z.entryUse e = s.entryUse e → step z e = (z.updEntry e write).tellStep told e) :
    (List.finRange 24).foldl step s = (s.rewriteEntries write).tellOf told := by
  have commute : ∀ (l : List EntryId) (z : State) (d : EntryId),
      l.foldl (fun z e => z.updEntry e write) (z.tellStep told d)
        = (l.foldl (fun z e => z.updEntry e write) z).tellStep told d := by
    intro l
    induction l with
    | nil => exact fun _ _ => rfl
    | cons e l ih => exact fun z d => by rw [List.foldl_cons, List.foldl_cons, updEntry_tellStep, ih]
  have pass : ∀ (l : List EntryId) (z : State), l.Nodup → s.sameClock z → (∀ e ∈ l, z.entryUse e = s.entryUse e) →
      l.foldl step z = l.foldl (State.tellStep told) (l.foldl (fun z e => z.updEntry e write) z) := by
    intro l
    induction l with
    | nil => exact fun _ _ _ _ => rfl
    | cons e l ih =>
      intro z hl hz he
      obtain ⟨hel, hl⟩ := List.nodup_cons.1 hl
      have hclock : s.sameClock ((z.updEntry e write).tellStep told e) := by
        simp only [State.tellStep]
        split <;> simpa [State.sameClock] using hz
      rw [List.foldl_cons, List.foldl_cons, List.foldl_cons, hstep z e hz (he e (by simp)), ih _ hl hclock, commute]
      intro d hd
      have hne : d ≠ e := fun h => hel (h ▸ hd)
      rw [entryUse_of_entries (tellStep_entries _ _ _), entryUse_updEntry, if_neg hne, he d (by simp [hd])]
  exact pass _ s (List.nodup_finRange 24) ⟨rfl, rfl⟩ fun _ _ => rfl

theorem tellStep_none {told : EntryId → Option (MirrorUse × MirrorState)} {e : EntryId} (h : told e = none) :
    s.tellStep told e = s := by
  simp only [State.tellStep, h]

theorem tellStep_some {told : EntryId → Option (MirrorUse × MirrorState)} {e : EntryId} {u : MirrorUse} {m : MirrorState}
    (h : told e = some (u, m)) : s.tellStep told e = s.offerTo (.mirrorState e m) u.hearers := by
  simp only [State.tellStep, h]

end Sys2Proof.Machine

/-! ## The stale limit and the hang limit (O42) -/

namespace Sys2Proof.Machine

open Sys2Proof

variable {s : State}

/-- The record of an entry once its stale limit is re-evaluated: a VALID one goes STALE where its value has reached the limit,
and has its stale timer at the limit otherwise (R66). -/
def MirrorUse.rechecked (s : State) (u : MirrorUse) : MirrorUse :=
  match u.value with
  | none => u
  | some v =>
    if u.state = .valid then
      if v.time + s.params.staleMultiple * u.period ≤ s.now then { u with state := .stale, staleTimer := none }
      else { u with staleTimer := some ⟨v.time, s.params.staleMultiple * u.period⟩ }
    else u

/-- Which entries tell that they go STALE, with the record before it (R66). -/
def State.staleTold (s : State) (e : EntryId) : Option (MirrorUse × MirrorState) :=
  (s.entryUse e).bind fun u => u.value.bind fun v =>
    if u.state = .valid ∧ v.time + s.params.staleMultiple * u.period ≤ s.now then some (u, .stale) else none

theorem rechecked_of_not_valid {u : MirrorUse} (h : u.state ≠ .valid) : u.rechecked s = u := by
  simp only [MirrorUse.rechecked, if_neg h]
  split <;> rfl

theorem rechecked_of_valid {u : MirrorUse} {v : HeldValue} (h : u.state = .valid) (hv : u.value = some v) :
    u.rechecked s = if v.time + s.params.staleMultiple * u.period ≤ s.now then { u with state := .stale, staleTimer := none }
      else { u with staleTimer := some ⟨v.time, s.params.staleMultiple * u.period⟩ } := by
  simp only [MirrorUse.rechecked, hv, if_pos h]

/-- The re-evaluation of one stale limit: the record changes, and the entry tells so (R66). -/
theorem recheckStale_eq (s : State) (e : EntryId) :
    s.recheckStale e = (s.updEntry e (MirrorUse.rechecked s)).tellStep s.staleTold e := by
  have quiet : (∀ u, s.entryUse e = some u → u.rechecked s = u) → s.staleTold e = none →
      (s.updEntry e (MirrorUse.rechecked s)).tellStep s.staleTold e = s := fun hid htold => by
    rw [tellStep_none htold, updEntry_id hid]
  cases hu : s.entryUse e with
  | none =>
    rw [quiet (by simp [hu]) (by simp [State.staleTold, hu])]
    simp only [State.recheckStale, hu]
  | some u =>
    by_cases hv : u.state = .valid
    · cases hval : u.value with
      | none =>
        rw [quiet (by simp [hu, MirrorUse.rechecked, hval]) (by simp [State.staleTold, hu, hval])]
        simp only [State.recheckStale, hu, if_pos hv, hval]
      | some v =>
        by_cases hle : v.time + s.params.staleMultiple * u.period ≤ s.now
        · rw [tellStep_some (u := u) (m := .stale) (by simp [State.staleTold, hu, hval, hv, hle]), updEntry_eq hu,
            rechecked_of_valid hv hval, if_pos hle]
          simp only [State.recheckStale, hu, if_pos hv, hval, State.staleLimit, if_pos hle, State.goStale, updEntry_eq hu]
          rfl
        · rw [tellStep_none (by simp [State.staleTold, hu, hval, hle]), updEntry_eq hu, rechecked_of_valid hv hval,
            if_neg hle]
          simp only [State.recheckStale, hu, if_pos hv, hval, State.staleLimit, if_neg hle, updEntry_eq hu]
    · rw [quiet (by simpa [hu] using rechecked_of_not_valid hv)
        (by simp [State.staleTold, hu, hv])]
      simp only [State.recheckStale, hu, if_neg hv]

/-- The re-evaluation of every stale limit: all the records, and then all the notices (R66). -/
theorem recheckAllStale_eq (s : State) : s.recheckAllStale = (s.rewriteEntries (MirrorUse.rechecked s)).tellOf s.staleTold :=
  pass_eq_tellOf fun z e hz hu => by
    have hw : MirrorUse.rechecked z = MirrorUse.rechecked s := by
      funext u
      simp only [MirrorUse.rechecked, hz.1, hz.2]
    have ht : z.staleTold e = s.staleTold e := by simp only [State.staleTold, hu, hz.1, hz.2]
    rw [recheckStale_eq, hw]
    simp only [State.tellStep, ht]

theorem entry_recheckAllStale (s : State) (e : EntryId) :
    s.recheckAllStale.entry e = ⟨(s.entry e).issue, (s.entryUse e).map (MirrorUse.rechecked s)⟩ := by
  rw [recheckAllStale_eq, entry_tellOf, entry_rewriteEntries]

/-- The hang timer expires at once where its set point is as old as the new limit, and runs on to it otherwise (R117). -/
theorem retimeHang_eq {tm : Timer} (h : s.monitor.hang = some tm) : s.retimeHang =
    if tm.setAt + s.params.hangLimit ≤ s.now
    then (s.setMonitor { s.monitor with hang := some ⟨tm.setAt, s.params.hangLimit⟩ }).hangExpires
    else s.setMonitor { s.monitor with hang := some ⟨tm.setAt, s.params.hangLimit⟩ } := by
  simp only [State.retimeHang, h]
  by_cases hle : tm.setAt + s.params.hangLimit ≤ s.now
  · rw [if_pos hle]
    exact if_pos (timer_due hle)
  · rw [if_neg hle]
    exact if_neg fun hdue => hle (of_decide_eq_true hdue)

/-- Settles O42: the pass over the entries by what it does to one record, and the hang timer by whether it is due. -/
theorem staleAndHangLimitsActAtOnce : Obligations.StaleAndHangLimitsActAtOnce := by
  refine ⟨fun s => ⟨?_, fun e he => ?_, fun e u v hu hv hval => ?_⟩, fun s => ?_, fun s e u v hu hval => ⟨fun hv => ?_,
    fun hv hlt => ?_, fun hv hle => ?_⟩, fun s hr => ⟨fun h => ?_, fun tm h => ⟨fun hlt => ?_, fun hle => ?_⟩⟩⟩
  · apply State.eq_of_fields <;> simp
  · have hid : (s.entryUse e).map (MirrorUse.rechecked s) = s.entryUse e := by
      cases hu : s.entryUse e with
      | none => rfl
      | some u => rw [Option.map_some, rechecked_of_not_valid (he u hu)]
    rw [entry_recheckAllStale, hid]
    rfl
  · rw [entry_recheckAllStale, hu, Option.map_some, rechecked_of_valid hv hval]
  · have hentries : s.recheckAllStale.entries = (s.rewriteEntries (MirrorUse.rechecked s)).entries := by
      rw [recheckAllStale_eq, tellOf_entries]
    rw [hentries, recheckAllStale_eq]
    exact congrArg (State.tellOf · s.staleTold) (rewriteEntries_eq s _)
  · simp only [State.recheckStale, hu, if_neg hv]
  · simp only [State.recheckStale, hu, if_pos hv, hval, State.staleLimit, if_neg (Nat.not_le.2 hlt), updEntry_eq hu]
  · simp only [State.recheckStale, hu, if_pos hv, hval, State.staleLimit, if_pos hle, State.goStale, updEntry_eq hu]
    rfl
  · simp only [State.retimeHang, h]
  · rw [retimeHang_eq h, if_neg (Nat.not_le.2 hlt)]
    rfl
  · have hdue : timerDue (some ⟨tm.setAt, s.params.hangLimit⟩) s.now = true := timer_due hle
    rw [retimeHang_eq h, if_pos hle]
    refine ⟨fun hm => ?_, fun hm => ?_⟩
    · exact (event_taken (by exact hr) _).trans (congrArg _ (if_pos ⟨hdue, hm⟩))
    · exact (event_taken (by exact hr) _).trans (congrArg _ (if_pos ⟨hdue, hm⟩))

end Sys2Proof.Machine

/-! ## Bulk completions, whatever the state

What a bulk completion on every port does to one slot, with no law of the request lists assumed (R14). -/

namespace Sys2Proof.Machine

open Sys2Proof

variable {s : State} {p : Port} {n : SlotId} {r : Request} {c : Request → Bool} {o : TransferOutcome}

theorem not_mem_queuedSuch (h : ∀ r, s.request n = some r → ¬ (r.state = .queued ∧ c r = true)) :
    n ∉ s.queuedSuch p c := by
  intro hn
  obtain ⟨-, hn⟩ := List.mem_filter.1 hn
  obtain ⟨r, hr, hc⟩ := (Option.any_eq_true _ _).1 hn
  exact h r hr (by simpa using hc)

theorem mem_queuedSuch (hn : n ∈ s.list p) (hr : s.request n = some r) (hq : r.state = .queued) (hc : c r = true) :
    n ∈ s.queuedSuch p c := List.mem_filter.2 ⟨hn, by simp [hr, hq, hc]⟩

/-- A slot that is not to be completed stays as it is. -/
theorem request_completeQueuedAll_other (h : ∀ r, s.request n = some r → ¬ (r.state = .queued ∧ c r = true)) :
    (s.completeQueuedAll c o).request n = s.request n :=
  List.foldlRecOn (motive := fun a : State => a.request n = s.request n) _ _ rfl fun a ha p _ => by
    rw [request_completeQueued, if_neg (not_mem_queuedSuch (by rwa [ha])), ha]

/-- Where no slot is to be completed, nothing happens. -/
theorem completeQueuedAll_of_none (h : ∀ n r, s.request n = some r → ¬ (r.state = .queued ∧ c r = true)) :
    s.completeQueuedAll c o = s :=
  List.foldlRecOn (motive := fun a : State => a = s) _ _ rfl fun a ha p _ => by
    have hnone : a.queuedSuch p c = [] :=
      List.eq_nil_iff_forall_not_mem.2 fun n => not_mem_queuedSuch (by rw [ha]; exact h n)
    rw [State.completeQueued, hnone, List.foldl_nil, ha]

/-- Completions of other slots leave a slot in its list. -/
theorem mem_list_foldl_completeSlot (x : Result) (l : List SlotId) : ∀ {s : State}, n ∉ l → n ∈ s.list p →
    n ∈ (l.foldl (fun s m => s.completeSlot m x) s).list p := by
  induction l with
  | nil => exact fun _ h => h
  | cons m l ih =>
    intro s hl hn
    obtain ⟨hne, hl⟩ := List.ne_and_not_mem_of_not_mem_cons hl
    refine ih hl ?_
    cases hr : s.request m with
    | none => simpa [State.completeSlot, hr] using hn
    | some r =>
      rw [list_completeSlot hr]
      split
      · exact List.mem_filter.2 ⟨hn, by simpa using hne⟩
      · exact hn

/-- A listed slot that is to be completed is completed, once (R14). -/
theorem request_completeQueuedAll_taken (hn : n ∈ s.list p) (hr : s.request n = some r) (hq : r.state = .queued)
    (hc : c r = true) : (s.completeQueuedAll c o).request n = r.completed (Result.without o) := by
  have pass : ∀ (l : List Port) (a : State), a.request n = r.completed (Result.without o)
      ∨ p ∈ l ∧ n ∈ a.list p ∧ a.request n = some r →
      (l.foldl (fun a p => a.completeQueued p c o) a).request n = r.completed (Result.without o) := by
    intro l
    induction l with
    | nil => simp
    | cons q l ih =>
      intro a ha
      refine ih _ ?_
      rcases ha with hdone | ⟨hp, hna, hra⟩
      · refine .inl (Eq.trans ?_ hdone)
        refine request_completeQueued_of_not_queued a q c o fun r' hr' => ?_
        exact Request.completed_not_queued (o := some r) (x := Result.without o) (by rw [Option.bind_some, ← hdone, hr'])
      · by_cases hmem : n ∈ a.queuedSuch q c
        · left
          rw [request_completeQueued, if_pos hmem, hra, Option.bind_some]
        · have hpq : p ≠ q := by
            rintro rfl
            exact hmem (mem_queuedSuch hna hra hq hc)
          refine .inr ⟨(List.mem_cons.1 hp).resolve_left hpq, mem_list_foldl_completeSlot _ _ hmem hna, ?_⟩
          rw [request_completeQueued, if_neg hmem, hra]
  exact pass Port.all s (.inr ⟨Port.mem_all p, hn, hr⟩)

theorem list_completeQueuedAll_subset (s : State) (c : Request → Bool) (o : TransferOutcome) (p : Port) :
    (s.completeQueuedAll c o).list p ⊆ s.list p :=
  List.foldlRecOn (motive := fun a : State => a.list p ⊆ s.list p) _ _ (List.Subset.refl _) fun a ha q _ _ hm =>
    ha (list_completeQueued_subset a q c o p hm)

theorem issue_completeQueuedAll (s : State) (c : Request → Bool) (o : TransferOutcome) (n : SlotId) :
    ((s.completeQueuedAll c o).slot n).issue = (s.slot n).issue :=
  foldl_keep (fun z : State => (z.slot n).issue)
    (fun z _ => foldl_keep (fun z : State => (z.slot n).issue) (fun z m => issue_completeSlot z m n _) _ z) _ s

theorem issue_notLockedAll (s : State) (n : SlotId) : (s.notLockedAll.slot n).issue = (s.slot n).issue := by
  refine notLockedAll_induction (P := fun a => (a.slot n).issue = (s.slot n).issue) rfl fun a p m _ _ ha => ?_
  unfold State.completeIfDue
  split
  · rw [issue_completeSlot, ha]
  · exact ha

end Sys2Proof.Machine

/-! ## Quarantine onset (O36) -/

namespace Sys2Proof.Machine

open Sys2Proof

variable {s : State}

/-! ### What the onset does to the entries (R67) -/

/-- The record of an entry after the onset of the target at an address: one on it is FAILED with no poll due, and any other
stays (R67). -/
def MirrorUse.afterOnset (a : Byte) (u : MirrorUse) : MirrorUse :=
  if u.key.addr = a then
    { u with
      state := .failed, nextDue := none, dueTimer := none, staleTimer := none, pending := none, dueAfterRun := none }
  else u

/-- Which entries tell of the onset, with the record before it (R67). -/
def State.onsetTold (s : State) (a : Byte) (e : EntryId) : Option (MirrorUse × MirrorState) :=
  (s.entryUse e).bind fun u => if u.key.addr = a then some (u, .failed) else none

/-- The onset of one entry: its record changes, and it tells so. -/
theorem failEntry_eq (s : State) (a : Byte) (e : EntryId) :
    s.failEntry a e = (s.updEntry e (MirrorUse.afterOnset a)).tellStep (s.onsetTold a) e := by
  by_cases h : ∃ u, s.entryUse e = some u ∧ u.key.addr = a
  · obtain ⟨u, hu, ha⟩ := h
    rw [tellStep_some (u := u) (m := .failed) (by simp [State.onsetTold, hu, ha])]
    simp only [State.failEntry, hu, if_pos ha, updEntry_eq hu, MirrorUse.afterOnset]
    rfl
  · have hno : ∀ u, s.entryUse e = some u → u.key.addr ≠ a := fun u hu ha => h ⟨u, hu, ha⟩
    have htold : s.onsetTold a e = none := Option.bind_eq_none_iff.2 fun u hu => if_neg (hno u hu)
    have hid : s.updEntry e (MirrorUse.afterOnset a) = s := updEntry_id fun u hu => if_neg (hno u hu)
    rw [tellStep_none htold, hid]
    simp only [State.failEntry]
    cases hu : s.entryUse e with
    | none => rfl
    | some u => exact if_neg (hno u hu)

theorem failEntries_eq (s : State) (a : Byte) :
    s.failEntries a = (s.rewriteEntries (MirrorUse.afterOnset a)).tellOf (s.onsetTold a) :=
  pass_eq_tellOf fun z e _ hu => by
    rw [failEntry_eq]
    simp only [State.tellStep, State.onsetTold, hu]

/-! ### The onset as a whole (R88) -/

/-- The record of a target that has gone into quarantine (R88). -/
def Target.quarantinedAt (now : Nat) (x : Target) : Target :=
  { x with
    health := .quarantined, probeTimer := some ⟨now, x.probeInterval⟩, probeDue := some (now + x.probeInterval) }

/-- The requests that an onset completes TARGET QUARANTINED (R88). -/
def Request.barredBy (x : Target) (r : Request) : Bool := r.desc.target == x.addr && r.desc.kind != .probe

theorem barredBy_iff {x : Target} {r : Request} :
    r.barredBy x = true ↔ r.desc.target = x.addr ∧ r.desc.kind ≠ .probe := by
  simp [Request.barredBy]

/-- The completions that an onset makes (R36, R88). -/
def State.onsetCompletions (s : State) (x : Target) : State :=
  (s.completeQueuedAll (Request.barredBy x) .targetQuarantined).notLockedAll

section

variable (s : State) (es es' : Vector MirrorEntry 24) (ts ts' : Vector (Option Target) 32) (m m' : Monitor) (g g' : Engine)

@[simp] theorem entries_beside : (s.beside es ts m g).entries = es := rfl
@[simp] theorem targets_beside : (s.beside es ts m g).targets = ts := rfl
@[simp] theorem monitor_beside : (s.beside es ts m g).monitor = m := rfl
@[simp] theorem engine_beside : (s.beside es ts m g).engine = g := rfl
@[simp] theorem now_beside : (s.beside es ts m g).now = s.now := rfl
@[simp] theorem ports_beside : (s.beside es ts m g).ports = s.ports := rfl

@[simp] theorem beside_beside : (s.beside es ts m g).beside es' ts' m' g' = s.beside es' ts' m' g' := rfl

end

section

variable {t : TargetId} {x : Target}

/-- The onset touches no lock record, so that its completions are those of the state before it (R36, R88). -/
theorem onsetCompletions_marked (hx : s.target t = some x) :
    (s.setTarget t (some { x with health := .quarantined })).onsetCompletions x = (s.onsetCompletions x).beside s.entries
      (s.setTarget t (some { x with health := .quarantined })).targets s.monitor s.engine := by
  change (s.beside s.entries _ s.monitor s.engine).onsetCompletions x = _
  rw [State.onsetCompletions, completeQueuedAll_beside, notLockedAll_beside]
  · rfl
  · intro u
    rw [target_of_targets (b := s) (by simp)]
    change ((s.setTarget t (some { x with health := .quarantined })).target u).map _ = _
    rw [target_setTarget]
    split
    · next e => rw [e, hx]; rfl
    · rfl

/-- Marking a target and then scheduling its probe writes its record once (R88). -/
theorem scheduleProbe_beside (s : State) (t : TargetId) (x : Target) {w : State} (hw : w.now = s.now) (es : Vector MirrorEntry 24)
    (m : Monitor) (g : Engine) :
    (w.beside es (s.setTarget t (some { x with health := .quarantined })).targets m g).scheduleProbe t
      = w.beside es (s.setTarget t (some (x.quarantinedAt s.now))).targets m g := by
  have hset (z : State) (v : Option Target) :
      (w.beside es z.targets m g).setTarget t v = w.beside es (z.setTarget t v).targets m g := rfl
  have htarget : (w.beside es (s.setTarget t (some { x with health := .quarantined })).targets m g).target t
      = some { x with health := .quarantined } := by
    rw [target_of_targets (targets_beside ..), target_setTarget, if_pos rfl]
  simp only [State.scheduleProbe, updTarget_eq htarget, hset, setTarget_setTarget, State.timer, now_beside, hw]
  rfl

/-- The onset in its order: the completions, the entries with their MIRROR STATE, the target with its TARGET STATE (R88). -/
theorem quarantineOnset_eq (hx : s.target t = some x) : ∃ es : Vector MirrorEntry 24,
    (∀ e, es.get e = ⟨(s.entry e).issue, (s.entryUse e).map (MirrorUse.afterOnset x.addr)⟩)
      ∧ s.quarantineOnset t = (((s.onsetCompletions x).tellOf (s.onsetTold x.addr)).beside es
          (s.setTarget t (some (x.quarantinedAt s.now))).targets s.monitor s.engine).offerTo
            (.targetState x.addr .quarantined x.failures) (s.hears x) := by
  have hmarked := onsetCompletions_marked hx
  generalize hm : (s.setTarget t (some { x with health := .quarantined })).onsetCompletions x = marked at hmarked
  have hentry : marked.entry = s.entry := entry_of_entries (by simp [hmarked])
  have htold : marked.onsetTold x.addr = s.onsetTold x.addr := by
    funext e
    simp only [State.onsetTold, State.entryUse, hentry]
  refine ⟨(marked.rewriteEntries (MirrorUse.afterOnset x.addr)).entries, fun e => ?_, ?_⟩
  · refine (entry_rewriteEntries marked _ e).trans ?_
    simp only [State.entryUse, hentry]
  · have hwrite : marked.rewriteEntries (MirrorUse.afterOnset x.addr) = (s.onsetCompletions x).beside
        (marked.rewriteEntries (MirrorUse.afterOnset x.addr)).entries
        (s.setTarget t (some { x with health := .quarantined })).targets s.monitor s.engine := by
      refine (rewriteEntries_eq marked _).trans ?_
      generalize (marked.rewriteEntries (MirrorUse.afterOnset x.addr)).entries = es
      rw [hmarked, beside_beside, targets_beside, monitor_beside, engine_beside]
    have hfail := failEntries_eq marked x.addr
    rw [htold, hwrite, tellOf_beside] at hfail
    have hdef : s.quarantineOnset t = ((marked.failEntries x.addr).scheduleProbe t).offerTargetState t := by
      rw [← hm]
      simp only [State.quarantineOnset, hx, updTarget_eq hx]
      rfl
    have hnow : ((s.onsetCompletions x).tellOf (s.onsetTold x.addr)).now = s.now := by
      simp only [State.onsetCompletions]
      exact (foldl_keep State.now (fun z e => by split <;> simp) _ _).trans (by simp)
    have hports : ((s.onsetCompletions x).tellOf (s.onsetTold x.addr)).ports = s.ports := by
      simp only [State.onsetCompletions]
      exact (foldl_keep State.ports (fun z e => by split <;> simp) _ _).trans (by simp)
    rw [hdef, hfail, scheduleProbe_beside s t x hnow]
    refine offerTargetState_eq (y := x.quarantinedAt s.now) ?_ (by rw [ports_beside, hports]) rfl rfl
    rw [target_of_targets (targets_beside ..), target_setTarget, if_pos rfl]

theorem target_quarantineOnset (hx : s.target t = some x) (u : TargetId) :
    (s.quarantineOnset t).target u = if u = t then some (x.quarantinedAt s.now) else s.target u := by
  obtain ⟨es, -, h⟩ := quarantineOnset_eq hx
  rw [h, target_offerTo, target_of_targets (targets_beside ..), target_setTarget]

theorem entry_quarantineOnset (hx : s.target t = some x) (e : EntryId) : (s.quarantineOnset t).entry e
    = ⟨(s.entry e).issue, (s.entryUse e).map (MirrorUse.afterOnset x.addr)⟩ := by
  obtain ⟨es, hes, h⟩ := quarantineOnset_eq hx
  rw [h, entry_offerTo, ← hes e]
  rfl

/-- The slots after the onset are those after its completions. -/
theorem slots_quarantineOnset (hx : s.target t = some x) : (s.quarantineOnset t).slots = (s.onsetCompletions x).slots := by
  obtain ⟨es, -, h⟩ := quarantineOnset_eq hx
  rw [h]
  simp only [offerTo_frame]
  exact foldl_keep State.slots (fun z e => by split <;> simp) _ _

/-- The notices of the onset: those of its completions, MIRROR STATE by rising entry number, TARGET STATE (R87, R88). -/
theorem quarantineOnset_told (hx : s.target t = some x) : s.quarantineOnset t
    = (State.tellOf { s.onsetCompletions x with
          entries := (s.quarantineOnset t).entries, targets := (s.quarantineOnset t).targets }
        (s.onsetTold x.addr)).offerTo (.targetState x.addr .quarantined x.failures) (s.hears x) := by
  obtain ⟨es, -, h⟩ := quarantineOnset_eq hx
  have hentries : (s.quarantineOnset t).entries = es := by rw [h]; simp
  have htargets : (s.quarantineOnset t).targets = (s.setTarget t (some (x.quarantinedAt s.now))).targets := by
    rw [h]; simp only [offerTo_frame, targets_beside]
  have hbeside : { s.onsetCompletions x with entries := es, targets := (s.setTarget t (some (x.quarantinedAt s.now))).targets }
      = (s.onsetCompletions x).beside es (s.setTarget t (some (x.quarantinedAt s.now))).targets s.monitor s.engine := by
    apply State.eq_of_fields <;> simp [State.beside, State.onsetCompletions]
  rw [hentries, htargets, hbeside, tellOf_beside]
  exact h

end

/-- A request that an onset does not bar stays, or completes NOT LOCKED (R36, R88). -/
theorem request_onsetCompletions_other {x : Target} {n : SlotId} {r : Request} (hr : s.request n = some r)
    (h : ¬ (r.state = .queued ∧ r.barredBy x = true)) : (s.onsetCompletions x).request n = some r
      ∨ s.lacksLock n r ∧ (s.onsetCompletions x).request n = r.completed .notLocked := by
  have hr' : (s.completeQueuedAll (Request.barredBy x) .targetQuarantined).request n = some r := by
    rw [request_completeQueuedAll_other, hr]
    intro r' hr'
    rw [hr] at hr'
    cases hr'
    exact h
  refine (request_notLockedAll hr').imp_right fun ⟨⟨hq, hu, p, hp, hfree⟩, hdone⟩ => ⟨⟨hq, hu, p, ?_, ?_⟩, hdone⟩
  · exact list_completeQueuedAll_subset s _ _ p hp
  · rwa [targetAt_of_targets (b := s) (by simp)] at hfree

/-- A listed request that an onset bars is completed, and is past the NOT LOCKED completions then (R36, R88). -/
theorem request_onsetCompletions_taken {x : Target} {p : Port} {n : SlotId} {r : Request} (hn : n ∈ s.list p)
    (hr : s.request n = some r) (hq : r.state = .queued) (hb : r.barredBy x = true) :
    (s.onsetCompletions x).request n = r.completed (Result.without .targetQuarantined) := by
  have hdone := request_completeQueuedAll_taken (o := .targetQuarantined) hn hr hq hb
  rw [State.onsetCompletions, request_notLockedAll_of_not_queued, hdone]
  intro r' hr'
  exact Request.completed_not_queued (o := some r) (x := Result.without .targetQuarantined)
    (by rw [Option.bind_some, ← hdone, hr'])

/-- A FREE slot stays FREE through the completions of an onset. -/
theorem request_onsetCompletions_free {x : Target} {n : SlotId} (hn : s.request n = none) :
    (s.onsetCompletions x).request n = none := by
  have hn' : (s.completeQueuedAll (Request.barredBy x) .targetQuarantined).request n = none := by
    rw [request_completeQueuedAll_other (by simp [hn]), hn]
  rw [State.onsetCompletions, request_notLockedAll_of_not_queued _ (by simp [hn']), hn']

/-- Settles O36: the slots by the completions of the onset, the tables and the notices by its equation. -/
theorem quarantineOnset : Obligations.QuarantineOnset := by
  intro s t x y hx hy z
  have hrequest : z.request = (s.onsetCompletions x).request := request_of_slots (slots_quarantineOnset hx)
  refine ⟨?_, ?_, fun u hu => ?_, fun n => ?_, fun n hn => ?_, fun n r hr hno => ?_, fun p n r hn hr hq ha hk ho => ?_,
    fun e => entry_quarantineOnset hx e, quarantineOnset_told hx, fun hno => ?_⟩
  · apply State.eq_of_fields <;> simp [z]
  · rw [target_quarantineOnset hx, if_pos rfl, hy]
    rfl
  · rw [target_quarantineOnset hx, if_neg hu]
  · rw [slot_of_slots (slots_quarantineOnset hx), State.onsetCompletions, issue_notLockedAll, issue_completeQueuedAll]
  · rw [hrequest, request_onsetCompletions_free hn]
  · rw [hrequest]
    have hbar : ¬ (r.state = .queued ∧ r.barredBy x = true) := by
      rw [barredBy_iff]
      rintro ⟨hq, ha, hk⟩
      exact hno.elim (· hq) (·.elim (· ha) hk)
    refine (request_onsetCompletions_other hr hbar).imp_right ?_
    rintro ⟨⟨hq, hu, hp⟩, hdone⟩
    exact ⟨hq, hu, hp, hdone⟩
  · rw [hrequest, request_onsetCompletions_taken hn hr hq (barredBy_iff.2 ⟨ha, hk⟩), Request.completed, ho, Bool.false_or]
    rfl
  · refine completeQueuedAll_of_none fun n r hr hb => ?_
    obtain ⟨hq, ha, hk⟩ := And.imp_right barredBy_iff.1 hb
    exact (hno n r hr).elim (· hq) (·.elim (· ha) hk)

end Sys2Proof.Machine

/-! ## The effective period and the due time (O31) -/

namespace Sys2Proof.Machine

open Sys2Proof

variable {s : State}

/-! ### The effective period (R50) -/

theorem mem_records {u : MirrorUse} {sp : Sponsor} : sp ∈ u.records ↔ ∃ p, u.sponsors.get p = some sp := by
  simp [MirrorUse.records, List.mem_filterMap]

/-- The running minimum of the periods is reached and is a lower bound. -/
theorem foldl_min_period (l : List Sponsor) : ∀ m : Nat,
    (l.foldl (fun m sp => min m sp.period) m = m ∨ ∃ sp ∈ l, l.foldl (fun m sp => min m sp.period) m = sp.period)
      ∧ l.foldl (fun m sp => min m sp.period) m ≤ m
      ∧ ∀ sp ∈ l, l.foldl (fun m sp => min m sp.period) m ≤ sp.period := by
  induction l with
  | nil => simp
  | cons a l ih =>
    intro m
    obtain ⟨hreach, hle, hall⟩ := ih (min m a.period)
    rw [List.foldl_cons]
    refine ⟨?_, by omega, fun sp hsp => ?_⟩
    · rcases hreach with h | ⟨sp, hsp, h⟩
      · rcases Nat.le_total m a.period with hm | hm
        · exact .inl (h.trans (Nat.min_eq_left hm))
        · exact .inr ⟨a, by simp, h.trans (Nat.min_eq_right hm)⟩
      · exact .inr ⟨sp, by simp [hsp], h⟩
    · rcases List.mem_cons.1 hsp with rfl | hsp
      · omega
      · exact hall sp hsp

/-- The effective period of an entry with a sponsor is the least of its periods (R50). -/
theorem period_least {u : MirrorUse} (h : ∃ p, u.sponsors.get p ≠ none) :
    (∃ p sp, u.sponsors.get p = some sp ∧ sp.period = u.period)
      ∧ ∀ p sp, u.sponsors.get p = some sp → u.period ≤ sp.period := by
  obtain ⟨p, hp⟩ := h
  obtain ⟨sp, hsp⟩ := Option.ne_none_iff_exists'.1 hp
  cases hr : u.records with
  | nil => simpa [hr] using mem_records.2 ⟨p, hsp⟩
  | cons a l =>
    have hperiod : u.period = l.foldl (fun m sp => min m sp.period) a.period := by simp only [MirrorUse.period, hr]
    obtain ⟨hreach, hle, hall⟩ := foldl_min_period l a.period
    rw [← hperiod] at hreach hle hall
    have hmem (sp : Sponsor) : sp ∈ a :: l ↔ ∃ p, u.sponsors.get p = some sp := by rw [← hr, mem_records]
    refine ⟨?_, fun p sp hsp => ?_⟩
    · rcases hreach with h | ⟨sp, hsp, h⟩
      · obtain ⟨q, hq⟩ := (hmem a).1 (by simp)
        exact ⟨q, a, hq, h.symm⟩
      · obtain ⟨q, hq⟩ := (hmem sp).1 (by simp [hsp])
        exact ⟨q, sp, hq, h.symm⟩
    · rcases List.mem_cons.1 ((hmem sp).2 ⟨p, hsp⟩) with rfl | hsp
      · exact hle
      · exact hall sp hsp

/-! ### The due time (R56) -/

/-- The record of an entry once its due time is recomputed, by Table 3-5; `running` says whether its poll runs (R56, R57). -/
def MirrorUse.recomputed (s : State) (running : Bool) (u : MirrorUse) : MirrorUse :=
  match u.lastStart with
  | none => u
  | some start =>
    if u.state = .failed ∨ u.pending ≠ none then u
    else if s.now < start + u.period then
      { u with nextDue := some (start + u.period), dueTimer := some ⟨start, u.period⟩, dueAfterRun := none }
    else if running then
      { u with nextDue := some (start + u.period), dueTimer := none, dueAfterRun := some (start + u.period) }
    else
      { u with
        nextDue := some (start + u.period), dueTimer := none
        pending := some ⟨s.params.maintenanceClass, s.now, 0, s.now, false⟩ }

theorem recomputed_of_kept {running : Bool} {u : MirrorUse}
    (h : u.state = .failed ∨ u.pending ≠ none ∨ u.lastStart = none) : u.recomputed s running = u := by
  simp only [MirrorUse.recomputed]
  split
  · rfl
  · next start hs => exact if_pos (by simpa [hs] using h)

/-- The recomputation of a due time writes the record of its entry over (R56). -/
theorem recomputeDue_eq (s : State) (e : EntryId) :
    s.recomputeDue e = s.updEntry e (MirrorUse.recomputed s (s.pollRunning e)) := by
  by_cases hkept : ∀ u, s.entryUse e = some u → u.state = .failed ∨ u.pending ≠ none ∨ u.lastStart = none
  · rw [updEntry_id fun u hu => recomputed_of_kept (hkept u hu)]
    simp only [State.recomputeDue]
    cases hu : s.entryUse e with
    | none => rfl
    | some u =>
      rcases hkept u hu with h | h | h
      · exact if_pos h
      · simp only [if_pos (Option.isSome_iff_ne_none.2 h), ite_self]
      · simp only [h, ite_self]
  · push Not at hkept
    obtain ⟨u, hu, hf, hp, hs⟩ := hkept
    obtain ⟨start, hs⟩ := Option.ne_none_iff_exists'.1 hs
    have hmoves : ¬ (u.state = .failed ∨ u.pending ≠ none) := by simp [hf, hp]
    have hidle : ¬ u.pending.isSome = true := by simp [hp]
    simp only [State.recomputeDue, hu, if_neg hf, if_neg hidle, hs, updEntry_eq hu, updEntry_setEntry,
      MirrorUse.recomputed, if_neg hmoves]
    by_cases hlt : s.now < start + u.period
    · rw [if_neg (Nat.not_le.2 hlt), if_pos hlt]
    · rw [if_pos (Nat.not_lt.1 hlt), if_neg hlt]
      cases s.pollRunning e
      · rw [if_neg Bool.false_ne_true, if_neg Bool.false_ne_true]
        exact makePollDue_setEntry s e _ (by exact hp) s.now
      · rfl

/-- Settles O31: the period by the running minimum, the due time by the record it leaves. -/
theorem dueTimeFollowsThePeriod : Obligations.DueTimeFollowsThePeriod := by
  refine ⟨fun u => period_least, fun s e u hu => ⟨fun h => ?_, fun start hf hp hs => ?_⟩⟩
  · rw [recomputeDue_eq, updEntry_id]
    intro v hv
    rw [hu] at hv
    cases hv
    exact recomputed_of_kept h
  · have hmoves : ¬ (u.state = .failed ∨ u.pending ≠ none) := by simp [hf, hp]
    rw [recomputeDue_eq, updEntry_eq hu]
    simp only [MirrorUse.recomputed, hs, if_neg hmoves]
    refine ⟨fun hlt => ?_, fun hle hrun => ?_, fun hle hrun => ?_⟩
    · rw [if_pos hlt]
    · rw [if_neg (Nat.not_lt.2 hle), hrun]
      rfl
    · rw [if_neg (Nat.not_lt.2 hle), hrun]
      rfl

end Sys2Proof.Machine

/-! ## Completion of a poll (O45) -/

namespace Sys2Proof.Machine

open Sys2Proof

variable {s : State}

/-- Offering and writing an entry bear on different blocks. -/
theorem updEntry_offerTo (s : State) (n : Notice) (ps : List Port) (e : EntryId) (f : MirrorUse → MirrorUse) :
    (s.offerTo n ps).updEntry e f = (s.updEntry e f).offerTo n ps := by
  have hk := offerTo_beside s s.entries s.targets s.monitor s.engine n ps
  have hw := offerTo_beside s (s.updEntry e f).entries s.targets s.monitor s.engine n ps
  change s.offerTo n ps = _ at hk
  change (s.updEntry e f).offerTo n ps = _ at hw
  rw [hw, hk]
  rfl

/-! ### The poll that fell due meanwhile (R57) -/

/-- The record of an entry whose poll has ended: a poll that fell due meanwhile falls due now, unless one pends (R57). -/
def MirrorUse.fallen (s : State) (u : MirrorUse) : MirrorUse :=
  match u.dueAfterRun with
  | none => u
  | some due => { u with
      dueAfterRun := none
      pending := some (u.pending.getD ⟨s.params.maintenanceClass, s.now, 0, due, false⟩) }

theorem dueAfterPoll_eq (s : State) (e : EntryId) : s.dueAfterPoll e = s.updEntry e (MirrorUse.fallen s) := by
  cases hu : s.entryUse e with
  | none =>
    rw [updEntry_id (by simp [hu])]
    simp only [State.dueAfterPoll, hu, Option.bind_none]
  | some u =>
    rw [updEntry_eq hu]
    cases hd : u.dueAfterRun with
    | none =>
      simp only [State.dueAfterPoll, hu, Option.bind_some, hd, MirrorUse.fallen]
      rw [← hu]
      exact (setEntry_self s e).symm
    | some due =>
      simp only [State.dueAfterPoll, hu, Option.bind_some, hd, updEntry_eq hu, State.makePollDue, updEntry_setEntry,
        MirrorUse.fallen]
      cases u.pending <;> rfl

theorem dueAfterPoll_setEntry (s : State) (e : EntryId) (i : Byte) (u : MirrorUse) :
    (s.setEntry e ⟨i, some u⟩).dueAfterPoll e = s.setEntry e ⟨i, some (u.fallen s)⟩ := by
  rw [dueAfterPoll_eq, updEntry_setEntry]
  rfl

theorem dueAfterPoll_offerTo (s : State) (n : Notice) (ps : List Port) (e : EntryId) :
    (s.offerTo n ps).dueAfterPoll e = (s.dueAfterPoll e).offerTo n ps := by
  have hf : MirrorUse.fallen (s.offerTo n ps) = MirrorUse.fallen s := by
    funext u
    simp only [MirrorUse.fallen, offerTo_frame]
  rw [dueAfterPoll_eq, hf, updEntry_offerTo, dueAfterPoll_eq]

/-! ### The value and who is told (R61, R62) -/

theorem coversChange_eq (mask : Half) (old new : List Byte) :
    coversChange mask old new = (List.range 16).any fun i => mask.getLsbD i && old[i]? != new[i]? := by
  rw [Bool.eq_iff_iff]
  simp only [coversChange, List.any_eq_true, List.mem_finRange, true_and, Fin.exists_iff, List.mem_range, exists_prop]

/-- MIRROR CHANGED goes to the notifying sponsors whose mask covers a change, and to all of them on a first value (R62). -/
theorem toldOfChange_eq (u : MirrorUse) (data : List Byte) : u.toldOfChange data = Port.all.filter fun p =>
    (u.sponsors.get p).any fun sp => sp.notify && (u.value.all fun v => coversChange sp.mask v.bytes data) := by
  cases hv : u.value with
  | none =>
    simp only [MirrorUse.toldOfChange, hv, MirrorUse.notifying, Option.all_none, Bool.and_true]
  | some v =>
    simp only [MirrorUse.toldOfChange, hv, MirrorUse.notifying, Option.all_some, List.filter_filter]
    congr 1
    funext p
    cases u.sponsors.get p with
    | none => rfl
    | some sp => exact Bool.and_comm _ _

/-- The record of an entry that has stored a value (R61). -/
def MirrorUse.stored (s : State) (data : List Byte) (q : Half) (u : MirrorUse) : MirrorUse :=
  { u with
    lastOutcome := some .ok, value := some ⟨data, s.now⟩, seqNo := q, state := .valid
    staleTimer := some ⟨s.now, s.params.staleMultiple * u.period⟩ }

/-- The sequence number after a successful poll: advanced where the value is new (R61). -/
def MirrorUse.nextSeqNo (u : MirrorUse) (data : List Byte) : Half :=
  if u.value.map HeldValue.bytes = some data then u.seqNo else u.seqNo + 1

section

variable {e : EntryId} {u : MirrorUse} {issue : Byte}

/-- A poll whose use of the entry has ended is discarded (R60). -/
theorem completePoll_discarded (h : s.entryUse e = none ∨ (s.entry e).issue ≠ issue) (o : TransferOutcome)
    (data : List Byte) : s.completePoll e issue o data = s := by
  simp only [State.completePoll]
  cases hu : s.entryUse e with
  | none => rfl
  | some u => exact if_neg (h.resolve_left (by simp [hu]))

/-- An outcome that stores nothing is recorded (R63). -/
theorem completePoll_recorded (hu : s.entryUse e = some u) {o : TransferOutcome} (h : o ≠ .ok ∨ u.state = .failed)
    (data : List Byte) : s.completePoll e (s.entry e).issue o data
      = s.setEntry e ⟨(s.entry e).issue, some (MirrorUse.fallen s { u with lastOutcome := some o })⟩ := by
  rw [← dueAfterPoll_setEntry]
  simp only [State.completePoll, hu, if_true, updEntry_eq hu]
  by_cases ho : o = .ok
  · subst ho
    simp only [if_true, State.pollOk, if_pos (h.resolve_left (by simp)), updEntry_eq hu]
  · rw [if_neg ho]

/-- A success that is stored: the value, MIRROR CHANGED, and MIRROR STATE of an entry that was STALE (R61, R62). -/
theorem completePoll_stored (hu : s.entryUse e = some u) (hf : u.state ≠ .failed) (data : List Byte) :
    let told := (s.setEntry e ⟨(s.entry e).issue, some ((u.stored s data (u.nextSeqNo data)).fallen s)⟩).offerTo
      (.mirrorChanged e (u.nextSeqNo data)) (u.toldOfChange data)
    s.completePoll e (s.entry e).issue .ok data
      = if u.state = .stale then told.offerTo (.mirrorState e .valid) u.notifying else told := by
  have hseq : (if (u.value.map HeldValue.bytes != some data) = true then u.seqNo + 1 else u.seqNo) = u.nextSeqNo data := by
    simp only [MirrorUse.nextSeqNo, bne_iff_ne, ne_eq, ite_not]
  have hstore : s.storeValue e data (u.value.map HeldValue.bytes != some data)
      = s.setEntry e ⟨(s.entry e).issue, some (u.stored s data (u.nextSeqNo data))⟩ := by
    simp only [State.storeValue, updEntry_eq hu, hseq]
    rfl
  intro told
  simp only [State.completePoll, hu, if_true, State.pollOk, if_neg hf, hstore, hseq, State.offerMirrorState]
  split
  · rw [dueAfterPoll_offerTo, dueAfterPoll_offerTo, dueAfterPoll_setEntry]
  · rw [dueAfterPoll_offerTo, dueAfterPoll_setEntry]

end

/-- Settles O45, by whether the use of the poll lasts and whether its bytes are stored. -/
theorem completionOfAPoll : Obligations.CompletionOfAPoll := by
  intro s e issue o data
  refine ⟨fun h => completePoll_discarded h o data, fun u hu hi => ?_⟩
  subst hi
  intro fallen
  have hfallen (w : MirrorUse) (hd : w.dueAfterRun = u.dueAfterRun) (hp : w.pending = u.pending) :
      w.fallen s = fallen w := by
    simp only [MirrorUse.fallen, hd, hp]
    rfl
  refine ⟨fun h => ?_, fun hf q hsame hnew => ?_⟩
  · rw [completePoll_recorded hu h, hfallen { u with lastOutcome := some o } rfl rfl]
  · have hq : u.nextSeqNo data = q := by
      simp only [MirrorUse.nextSeqNo]
      split
      · next h =>
        obtain ⟨v, hv, hb⟩ := Option.map_eq_some_iff.1 h
        exact (hsame ⟨v, hv, hb⟩).symm
      · next h => exact (hnew fun v hv hb => h (by simp [hv, hb])).symm
    have htold : u.toldOfChange data = Port.all.filter fun p => (u.sponsors.get p).any fun sp => sp.notify &&
        match u.value with
        | none => true
        | some v => (List.range 16).any fun i => sp.mask.getLsbD i && v.bytes[i]? != data[i]? := by
      rw [toldOfChange_eq]
      cases u.value <;> simp [coversChange_eq]
    have hdone := completePoll_stored hu hf data
    rw [hq, hfallen (u.stored s data q) rfl rfl, htold] at hdone
    exact hdone

end Sys2Proof.Machine

/-! ## Taking an entry, and the queries (O29, O32) -/

namespace Sys2Proof.Machine

open Sys2Proof

variable {s : State} {p : Port}

/-! ### The arguments of the mirror commands (R51, R54, R70) -/

/-- The key that the fields of a command name (R51). -/
def keyNamed (ka : KeyArgs) : Key := ⟨ka.addr, [ka.index1, ka.index2, ka.index3].take ka.indexLen.toNat, ka.len.toNat⟩

theorem keyArg_of_good {ka : KeyArgs} (h : badKey ka = false) : keyArg ka = some (keyNamed ka) := by
  simp only [badKey, Bool.or_eq_false_iff, decide_eq_false_iff_not] at h
  obtain ⟨haddr, hlengths⟩ := h
  have htaken : addressArg ka.addr = some ka.addr := by simp [addressArg_eq, haddr]
  have hrange : ka.indexLen.toNat ≤ 3 ∧ 1 ≤ ka.len.toNat ∧ ka.len.toNat ≤ Config.mirrorValueMax := by
    simp only [Config.mirrorValueMax]
    omega
  simp only [keyArg, htaken, Option.bind_some, if_pos hrange]
  rfl

theorem defineArg_of_good {ka : KeyArgs} {period : Half} {flags : Byte} {mask : Half}
    (h : badArguments s (.mirrorDefine p ka period flags mask) = false) :
    defineArg ka period flags mask = some (keyNamed ka, ⟨period.toNat, flags.getLsbD 0, mask⟩) := by
  simp only [badArguments, Bool.or_eq_false_iff, decide_eq_false_iff_not] at h
  obtain ⟨hkey, hperiod⟩ := h
  have hrange : Config.periodMin ≤ period.toNat ∧ period.toNat ≤ Config.periodMax := by
    simp only [Config.periodMin, Config.periodMax]
    omega
  simp only [defineArg, keyArg_of_good hkey, Option.bind_some, if_pos hrange]
  rfl

theorem entryArg_of_val {b : Byte} {e : EntryId} (h : b.toNat = e.val) : entryArg b = some e := by
  simp only [entryArg, h, e.isLt, dif_pos]

section

variable (h : s.takesHeader p = true) (ha : (s.port p).attached = true)
include h ha

theorem exec_mirrorDefine {ka : KeyArgs} {period : Half} {flags : Byte} {mask : Half} {sp : Sponsor}
    (hsp : sp = ⟨period.toNat, flags.getLsbD 0, mask⟩)
    (hb : badArguments s (.mirrorDefine p ka period flags mask) = false) : exec (.mirrorDefine p ka period flags mask) s
      = .next ((mirrorDefineBody p (keyNamed ka) sp s).1.respond p (mirrorDefineBody p (keyNamed ka) sp s).2) := by
  subst hsp
  change Host.Outcome.next _ = _
  rw [command_taken h (standing_session ha) (defineArg_of_good hb)]

theorem exec_mirrorDrop {b : Byte} {e : EntryId} (hb : b.toNat = e.val) :
    exec (.mirrorDrop p b) s = .next ((mirrorDropBody p e s).1.respond p (mirrorDropBody p e s).2) :=
  congrArg Host.Outcome.next (command_taken h (standing_session ha) (entryArg_of_val hb))

theorem exec_mirrorFind {ka : KeyArgs} (hb : badKey ka = false) :
    exec (.mirrorFind p ka) s = .next (s.respond p (s.mirrorFindReply p (keyNamed ka))) :=
  congrArg Host.Outcome.next (command_taken h (standing_session ha) (keyArg_of_good hb))

theorem exec_mirrorRead {b : Byte} {e : EntryId} (hb : b.toNat = e.val) :
    exec (.mirrorRead p b) s = .next (s.respond p (s.mirrorReadReply p e)) :=
  congrArg Host.Outcome.next (command_taken h (standing_session ha) (entryArg_of_val hb))

theorem exec_targetQuery {a : Byte} (hb : noAddress a = false) :
    exec (.targetQuery p a) s = .next (s.respond p (s.targetQueryReply p a)) :=
  congrArg Host.Outcome.next (command_taken h (standing_session ha) (by simp [addressArg_eq, hb]))

end

/-! ### MIRROR DEFINE by the conditions of Table 3-4 -/

section

variable {k : Key} {sp : Sponsor} {x : Target} {e : EntryId}

theorem mirrorDefineBody_unknown (h : s.targetAt k.addr = none) :
    mirrorDefineBody p k sp s = (s, Reply.plain .unknownTarget) := by
  simp only [mirrorDefineBody, h]

theorem mirrorDefineBody_barred (h : s.targetAt k.addr = some x) (hr : x.readSet.has p = false) :
    mirrorDefineBody p k sp s = (s, Reply.plain .notPermitted) := by
  simp only [mirrorDefineBody, h, hr]
  rfl

theorem mirrorDefineBody_join (h : s.targetAt k.addr = some x) (hr : x.readSet.has p = true)
    (hk : s.findEntry k = some e) : mirrorDefineBody p k sp s = ((s.joinEntry e p sp).settle, entryReply e) := by
  simp only [mirrorDefineBody, h, hr, hk]
  rfl

theorem mirrorDefineBody_full (h : s.targetAt k.addr = some x) (hr : x.readSet.has p = true)
    (hk : s.findEntry k = none) (he : s.freeEntry = none) :
    mirrorDefineBody p k sp s = (s, Reply.plain .tableFull) := by
  simp only [mirrorDefineBody, h, hr, hk, he]
  rfl

theorem mirrorDefineBody_take (h : s.targetAt k.addr = some x) (hr : x.readSet.has p = true)
    (hk : s.findEntry k = none) (he : s.freeEntry = some e) : mirrorDefineBody p k sp s
      = ((s.takeEntry e p k sp (x.health == .quarantined)).settle, entryReply e) := by
  simp only [mirrorDefineBody, h, hr, hk, he]
  rfl

end

/-- Settles O29, condition by condition. -/
theorem mirrorDefineTakesAnEntry : Obligations.MirrorDefineTakesAnEntry := by
  intro s p ka period flags mask ht ha hb
  rw [exec_mirrorDefine ht ha rfl hb]
  refine ⟨fun hnone => ?_, fun x hx => ⟨fun hr => ?_, fun hr hk => ?_⟩⟩
  · rw [mirrorDefineBody_unknown hnone]
    rfl
  · rw [mirrorDefineBody_barred hx hr]
    rfl
  · have hnew : s.findEntry (keyNamed ka) = none := findEntry_eq_none.2 hk
    refine ⟨fun hfull => ?_, fun e he hlow => ?_⟩
    · rw [mirrorDefineBody_full hx hr hnew (freeEntry_eq_none.2 hfull)]
      rfl
    · rw [mirrorDefineBody_take hx hr hnew (freeEntry_eq_some.2 ⟨he, hlow⟩)]
      simp only [State.takeEntry, beq_iff_eq]
      rfl

/-! ### The queries -/

/-- The age that MIRROR READ reports (R71). -/
theorem reportedAge_of {v : Option HeldValue} {age : Nat} (hn : v = none → age = 65535)
    (hs : ∀ x, v = some x → age = min (s.now - x.time) 65535) : s.reportedAge v = age := by
  cases v with
  | none => exact (hn rfl).symm
  | some x => exact (hs x rfl).symm

/-- The record of MIRROR READ, field by field (R71, Table 10-11). -/
theorem mirrorRecord_eq {u : MirrorUse} {age : Nat} {last : Byte} {bytes : List Byte}
    (hn : u.value = none → age = 65535 ∧ bytes = [])
    (hs : ∀ v, u.value = some v → age = min (s.now - v.time) 65535 ∧ bytes = v.bytes)
    (hl : u.lastOutcome = none → last = 0xFF#8) (ho : ∀ o, u.lastOutcome = some o → last = o.byte) :
    s.mirrorRecord u = [u.state.byte] ++ Half.bytes u.seqNo ++ Half.bytes (BitVec.ofNat 16 age)
      ++ [last, BitVec.ofNat 8 u.key.len] ++ bytes := by
  have hage : s.reportedAge u.value = age := reportedAge_of (fun h => (hn h).1) fun v hv => (hs v hv).1
  have hlast : (match u.lastOutcome with | some o => o.byte | none => 0xFF#8) = last := by
    cases h : u.lastOutcome with
    | none => exact (hl h).symm
    | some o => exact (ho o h).symm
  have hbytes : (match u.value with | some v => v.bytes | none => []) = bytes := by
    cases h : u.value with
    | none => exact (hn h).2.symm
    | some v => exact (hs v h).2.symm
  rw [← hage, ← hlast, ← hbytes]
  rfl

/-- The record of TARGET QUERY, field by field (R81, Table 10-12). -/
theorem queryRecord_eq {x : Target} {holder access : Byte} (hn : x.lock = none → holder = 0xFF#8)
    (hh : ∀ h, x.lock = some h → holder = portNumber h.port)
    (ha : ∀ i, access.getLsbD i = (i == 0 && x.readSet.getLsbD p.index.val || i == 1 && x.writeSet.getLsbD p.index.val))
    (t : TargetId) : x.queryRecord t p = [BitVec.ofNat 8 t.val, x.health.byte, BitVec.ofNat 8 x.failures, holder,
      BitVec.ofNat 8 x.waiters.length, access] := by
  have hholder : portByte (x.lock.map Hold.port) = holder := by
    cases h : x.lock with
    | none => exact (hn h).symm
    | some k => exact (hh k h).symm
  have haccess : flagBit (x.readSet.has p) 0 ||| flagBit (x.writeSet.has p) 1 = access := by
    refine BitVec.eq_of_getLsbD_eq fun i hi => ?_
    rw [ha i]
    change BitVec.getLsbD (flagBit (x.readSet.getLsbD _) 0 ||| flagBit (x.writeSet.getLsbD _) 1) i = _
    generalize x.readSet.getLsbD _ = r
    generalize x.writeSet.getLsbD _ = w
    revert i r w
    decide
  rw [← hholder, ← haccess]
  rfl

/-- Settles O32, command by command. -/
theorem queriesReadTheTables : Obligations.QueriesReadTheTables := by
  refine ⟨fun s p ka ht ha hb => ?_, fun s p b e ht ha hb => ?_, fun s p a ht ha hb => ?_⟩
  · rw [exec_mirrorFind ht ha hb]
    refine ⟨fun hnone => ?_, fun x hx => ⟨fun hr => ?_, fun hr => ⟨fun hk => ?_, fun e u hu hk hlow => ?_⟩⟩⟩
    · simp only [State.mirrorFindReply, keyNamed, hnone]
      rfl
    · simp only [State.mirrorFindReply, keyNamed, hx, PortSet.has, hr]
      rfl
    · simp only [State.mirrorFindReply, keyNamed, hx, PortSet.has, hr, findEntry_eq_none.2 hk]
      rfl
    · simp only [State.mirrorFindReply, keyNamed, hx, PortSet.has, hr, findEntry_eq_some.2 ⟨⟨u, hu, hk⟩, hlow⟩]
      rfl
  · rw [exec_mirrorRead ht ha hb]
    refine ⟨fun hnone => ?_, fun u hu => ⟨fun hbar => ?_, fun x hx hr age last bytes hn hs hl ho => ?_⟩⟩
    · simp only [State.mirrorReadReply, hnone]
      rfl
    · have hno : ¬ ((s.targetAt u.key.addr).any fun x => x.readSet.has p) = true := by
        rw [Option.any_eq_true]
        rintro ⟨x, hx, hr⟩
        exact Bool.false_ne_true ((hbar x hx).symm.trans hr)
      simp only [State.mirrorReadReply, hu, if_neg hno]
      rfl
    · simp only [State.mirrorReadReply, hu, hx, Option.any_some, PortSet.has, hr, if_true, mirrorRecord_eq hn hs hl ho]
  · rw [exec_targetQuery ht ha hb]
    refine ⟨fun hnone => ?_, fun t x hl holder access hn hh hacc => ?_⟩
    · simp only [State.targetQueryReply, targetAt_eq_none.1 hnone]
      rfl
    · simp only [State.targetQueryReply, hl, queryRecord_eq hn hh hacc]

end Sys2Proof.Machine

/-! ## What the sponsors, a selection and a fold do to one entry

The record of an entry after a change of its sponsors and after the re-evaluation. -/

namespace Sys2Proof.Machine

open Sys2Proof

variable {s : State}

/-! ### A change of sponsors (R50, R56, R66) -/

theorem recomputed_congr {a : State} (h : s.sameClock a) (running : Bool) :
    MirrorUse.recomputed a running = MirrorUse.recomputed s running := by
  funext u
  simp only [MirrorUse.recomputed, h.1, h.2]

theorem rechecked_congr {a : State} (h : s.sameClock a) : MirrorUse.rechecked a = MirrorUse.rechecked s := by
  funext u
  simp only [MirrorUse.rechecked, h.1, h.2]

theorem pollRunning_congr {a : State} {e : EntryId} (hg : a.engine = s.engine) (hi : (a.entry e).issue = (s.entry e).issue) :
    a.pollRunning e = s.pollRunning e := by
  simp only [State.pollRunning, hg, hi]

/-- The record of an entry with another sponsor set: the due time follows the effective period, and with another period the
stale limit does (R50, R56, R66). -/
def MirrorUse.responsored (s : State) (running : Bool) (sponsors : PerPort (Option Sponsor)) (u : MirrorUse) : MirrorUse :=
  let changed : MirrorUse := { u with sponsors := sponsors }
  if changed.period = u.period then changed.recomputed s running else (changed.recomputed s running).rechecked s

theorem responsored_congr {a : State} (h : s.sameClock a) (running : Bool) :
    MirrorUse.responsored a running = MirrorUse.responsored s running := by
  funext sponsors u
  simp only [MirrorUse.responsored, recomputed_congr h, rechecked_congr h]

theorem entry_withSponsors (s : State) (e d : EntryId) (u : MirrorUse) (sponsors : PerPort (Option Sponsor)) :
    (s.withSponsors e u sponsors).entry d
      = if d = e then ⟨(s.entry e).issue, some (u.responsored s (s.pollRunning e) sponsors)⟩ else s.entry d := by
  have hrun : (s.setEntry e ⟨(s.entry e).issue, some { u with sponsors := sponsors }⟩).pollRunning e = s.pollRunning e :=
    pollRunning_congr (by simp) (by simp)
  have hdue : (s.setEntry e ⟨(s.entry e).issue, some { u with sponsors := sponsors }⟩).recomputeDue e
      = s.setEntry e ⟨(s.entry e).issue, some
          (MirrorUse.recomputed s (s.pollRunning e) { u with sponsors := sponsors })⟩ := by
    rw [recomputeDue_eq, hrun, recomputed_congr (s := s) (by simp [State.sameClock]), updEntry_setEntry]
  simp only [State.withSponsors, hdue, MirrorUse.responsored]
  split
  · rw [entry_setEntry]
  · rw [recheckStale_eq, entry_of_entries (tellStep_entries _ _ _), updEntry_setEntry,
      rechecked_congr (s := s) (by simp [State.sameClock]), entry_setEntry]

/-- The parts of a record that neither sponsors nor the dispatcher change (R52). -/
def MirrorUse.sameHoldings (u v : MirrorUse) : Prop :=
  v.key = u.key ∧ v.value = u.value ∧ v.seqNo = u.seqNo ∧ v.lastOutcome = u.lastOutcome

theorem recomputed_keeps (s : State) (running : Bool) (u : MirrorUse) :
    u.sameHoldings (u.recomputed s running) ∧ (u.recomputed s running).sponsors = u.sponsors
      ∧ (u.recomputed s running).state = u.state ∧ (u.recomputed s running).staleTimer = u.staleTimer := by
  simp only [MirrorUse.recomputed, MirrorUse.sameHoldings]
  (repeat' split) <;> simp

theorem rechecked_keeps (s : State) (u : MirrorUse) : u.sameHoldings (u.rechecked s)
    ∧ (u.rechecked s).sponsors = u.sponsors
    ∧ ((u.rechecked s).state = u.state ∨ u.state = .valid ∧ (u.rechecked s).state = .stale) := by
  simp only [MirrorUse.rechecked, MirrorUse.sameHoldings]
  (repeat' split) <;> simp [*]

/-- A change of sponsors writes them and keeps the holdings; at most it takes a VALID entry to STALE (R52, R66). -/
theorem responsored_keeps (s : State) (running : Bool) (sponsors : PerPort (Option Sponsor)) (u : MirrorUse) :
    u.sameHoldings (u.responsored s running sponsors) ∧ (u.responsored s running sponsors).sponsors = sponsors
      ∧ ((u.responsored s running sponsors).state = u.state
        ∨ u.state = .valid ∧ (u.responsored s running sponsors).state = .stale) := by
  obtain ⟨hd, hds, hdst, -⟩ := recomputed_keeps s running { u with sponsors := sponsors }
  simp only [MirrorUse.responsored]
  split
  · exact ⟨hd, hds, .inl hdst⟩
  · obtain ⟨hr, hrs, hrst⟩ := rechecked_keeps s (MirrorUse.recomputed s running { u with sponsors := sponsors })
    obtain ⟨k1, k2, k3, k4⟩ := hd
    obtain ⟨r1, r2, r3, r4⟩ := hr
    rw [hdst] at hrst
    exact ⟨⟨r1.trans k1, r2.trans k2, r3.trans k3, r4.trans k4⟩, hrs.trans hds, hrst⟩

/-! ### A selection (R29, R59) -/

/-- The record of an entry whose pending poll starts (R59). -/
def MirrorUse.started (now : Nat) (m : Maint) (u : MirrorUse) : MirrorUse :=
  if m.started && u.dueTimer.isSome then { u with pending := none }
  else
    { u with
      pending := none, lastStart := some now, nextDue := some (now + u.period), dueTimer := some ⟨now, u.period⟩
      dueAfterRun := none }

theorem started_keeps (now : Nat) (m : Maint) (u : MirrorUse) : u.sameHoldings (u.started now m)
    ∧ (u.started now m).sponsors = u.sponsors ∧ (u.started now m).state = u.state
    ∧ (u.started now m).staleTimer = u.staleTimer := by
  simp only [MirrorUse.started, MirrorUse.sameHoldings]
  split <;> simp

/-- A poll that a participant offers is the pending poll of its entry (R39). -/
theorem poll_of_candidate {x : Participant} {e : EntryId} {i : Byte} {k : Key} {m : Maint}
    (h : s.candidate x = some (.poll e i k m)) : ∃ u, s.entry e = ⟨i, some u⟩ ∧ u.pending = some m := by
  cases x with
  | host p => simp [State.candidate] at h
  | maintenance =>
    obtain ⟨before, after, hl, -⟩ := earliest_eq_some.1 h
    have hmem : .poll e i k m ∈ s.maintenanceItems := by rw [hl]; simp
    obtain ⟨u, hu, -, hp, -⟩ := poll_mem_maintenanceItems.1 hmem
    exact ⟨u, hu, hp⟩

/-- What a selection can do to an entry: start its pending poll (R29, R59). -/
theorem entry_select (s : State) (e : EntryId) : s.select.entry e = s.entry e
    ∨ ∃ u m, s.entryUse e = some u ∧ u.pending = some m
      ∧ s.select.entry e = ⟨(s.entry e).issue, some (u.started s.now m)⟩ := by
  simp only [State.select]
  split
  · split
    · exact .inl rfl
    · next c x _ =>
      split
      · exact .inl rfl
      · next w hw =>
        cases w with
        | request n =>
          simp only [State.startWork]
          split
          · exact .inl rfl
          · exact .inl (congrFun (entry_of_entries (by simp)) e)
        | probe t a m => exact .inl (congrFun (entry_of_entries (by simp [State.startWork])) e)
        | poll d i k m =>
          obtain ⟨u, hu, hp⟩ := poll_of_candidate hw
          have hstart : ({ s with pointers := s.pointers.set c x }.startWork (.poll d i k m)).entry e
              = (s.updEntry d (MirrorUse.started s.now m)).entry e := rfl
          have huse : s.entryUse d = some u := congrArg MirrorEntry.use hu
          rw [hstart, entry_updEntry]
          split
          · next he =>
            subst he
            exact .inr ⟨u, m, huse, hp, by rw [huse, Option.map_some]⟩
          · exact .inl rfl
  · exact .inl rfl

theorem entry_notLockedAll (s : State) : s.notLockedAll.entry = s.entry := entry_of_entries (by simp)

/-- What the re-evaluation can do to an entry: start its pending poll (R29, R59). -/
theorem entry_settle (s : State) (e : EntryId) : s.settle.entry e = s.entry e
    ∨ ∃ u m, s.entryUse e = some u ∧ u.pending = some m
      ∧ s.settle.entry e = ⟨(s.entry e).issue, some (u.started s.now m)⟩ := by
  have h := entry_select s.notLockedAll e
  rwa [State.entryUse, entry_notLockedAll, show s.notLockedAll.now = s.now by simp] at h

theorem issue_settle (s : State) (e : EntryId) : (s.settle.entry e).issue = (s.entry e).issue := by
  rcases entry_settle s e with h | ⟨u, m, -, -, h⟩ <;> rw [h]

/-- The re-evaluation keeps holdings, sponsors and state of every entry. -/
theorem entryUse_settle {e : EntryId} {u : MirrorUse} (hu : s.entryUse e = some u) : ∃ v, s.settle.entryUse e = some v
    ∧ u.sameHoldings v ∧ v.sponsors = u.sponsors ∧ v.state = u.state := by
  rcases entry_settle s e with h | ⟨u', m, hu', -, h⟩
  · exact ⟨u, (congrArg MirrorEntry.use h).trans hu, ⟨rfl, rfl, rfl, rfl⟩, rfl, rfl⟩
  · rw [hu] at hu'
    cases hu'
    obtain ⟨hk, hsp, hst, -⟩ := started_keeps s.now m u
    exact ⟨_, congrArg MirrorEntry.use h, hk, hsp, hst⟩

/-! ### One place of a fold -/

/-- A fold over a table whose steps change each its own place: what a place becomes is what its own step makes of it, in a
state that has it as it was and has what the steps keep. -/
theorem foldl_finRange_at {k : Nat} {β : Type} {get : State → Fin k → β} {f : State → Fin k → State} {P : State → Prop}
    (keep : ∀ a i, P a → P (f a i)) (other : ∀ a i j, j ≠ i → get (f a i) j = get a j) {s : State} (hs : P s) (i : Fin k) :
    ∃ a, P a ∧ get a i = get s i ∧ get ((List.finRange k).foldl f s) i = get (f a i) i := by
  have rest : ∀ (l : List (Fin k)) (a : State), i ∉ l → get (l.foldl f a) i = get a i := by
    intro l
    induction l with
    | nil => exact fun _ _ => rfl
    | cons j l ih =>
      intro a hl
      obtain ⟨hj, hl⟩ := List.ne_and_not_mem_of_not_mem_cons hl
      rw [List.foldl_cons, ih _ hl, other a j i hj]
  have pass : ∀ (l : List (Fin k)) (a : State), P a → l.Nodup → i ∈ l →
      ∃ b, P b ∧ get b i = get a i ∧ get (l.foldl f a) i = get (f b i) i := by
    intro l
    induction l with
    | nil => simp
    | cons j l ih =>
      intro a ha hl hi
      obtain ⟨hj, hl⟩ := List.nodup_cons.1 hl
      by_cases h : i = j
      · subst h
        exact ⟨a, ha, rfl, rest l _ hj⟩
      · obtain ⟨b, hb, hbi, hfold⟩ := ih (f a j) (keep a j ha) hl ((List.mem_cons.1 hi).resolve_left h)
        exact ⟨b, hb, hbi.trans (other a j i h), hfold⟩
  exact pass _ s hs (List.nodup_finRange k) (List.mem_finRange i)

end Sys2Proof.Machine

/-! ## Sponsors join and leave (O30) -/

namespace Sys2Proof.Machine

open Sys2Proof

variable {s : State} {e : EntryId} {u : MirrorUse} {p : Port}

theorem all_isNone_iff {x : PerPort (Option Sponsor)} :
    (Port.all.all fun q => (x.get q).isNone) = true ↔ ∀ q, x.get q = none := by
  simp [List.all_eq_true]

/-- No sponsor is left when the only one goes. -/
theorem get_set_none_eq_none {x : PerPort (Option Sponsor)} :
    (∀ q, (x.set p none).get q = none) ↔ ∀ q, q ≠ p → x.get q = none := by
  simp

/-- The last sponsor leaves, and the entry is freed (R54). -/
theorem removeSponsor_last (hu : s.entryUse e = some u) (hp : u.sponsors.get p ≠ none)
    (h : ∀ q, q ≠ p → u.sponsors.get q = none) : s.removeSponsor e p = s.setEntry e ⟨(s.entry e).issue, none⟩ := by
  have hno : ¬ (u.sponsors.get p).isNone = true := by simpa using hp
  simp only [State.removeSponsor, hu, if_neg hno]
  exact if_pos (all_isNone_iff.2 (get_set_none_eq_none.2 h))

/-- One of several sponsors leaves (R54, R72). -/
theorem removeSponsor_one (hu : s.entryUse e = some u) (hp : u.sponsors.get p ≠ none)
    (h : ∃ q, q ≠ p ∧ u.sponsors.get q ≠ none) :
    s.removeSponsor e p = s.withSponsors e u (u.sponsors.set p none) := by
  have hno : ¬ (u.sponsors.get p).isNone = true := by simpa using hp
  obtain ⟨q, hq, hs⟩ := h
  rw [← setSponsors_eq_withSponsors hu]
  simp only [State.removeSponsor, hu, if_neg hno]
  exact if_neg fun hall => hs (get_set_none_eq_none.1 (all_isNone_iff.1 hall) q hq)

theorem removeSponsor_free (hu : s.entryUse e = none) : s.removeSponsor e p = s := by
  simp only [State.removeSponsor, hu]

theorem removeSponsor_absent (hu : s.entryUse e = some u) (hp : u.sponsors.get p = none) : s.removeSponsor e p = s := by
  simp only [State.removeSponsor, hu, hp]
  rfl

/-- A sponsor leaves one entry alone. -/
theorem entry_removeSponsor_other {d : EntryId} (h : d ≠ e) (p : Port) : (s.removeSponsor e p).entry d = s.entry d := by
  cases hu : s.entryUse e with
  | none => rw [removeSponsor_free hu]
  | some u =>
    by_cases hp : u.sponsors.get p = none
    · rw [removeSponsor_absent hu hp]
    · by_cases hrest : ∃ q, q ≠ p ∧ u.sponsors.get q ≠ none
      · rw [removeSponsor_one hu hp hrest, entry_withSponsors, if_neg h]
      · push Not at hrest
        rw [removeSponsor_last hu hp hrest, entry_setEntry, if_neg h]

/-- A session end leaves an entry with another sponsor as the leaving of that one sponsor does (R72). -/
theorem entryUse_endSession (hu : s.entryUse e = some u) (hp : u.sponsors.get p ≠ none)
    (h : ∃ q, q ≠ p ∧ u.sponsors.get q ≠ none) :
    (s.endSession p).entryUse e = (s.withSponsors e u (u.sponsors.set p none)).entryUse e := by
  obtain ⟨a, ⟨hclock, hengine⟩, hentry, hfold⟩ := foldl_finRange_at (get := State.entry)
    (f := fun z d => z.removeSponsor d p) (P := fun a => s.sameClock a ∧ a.engine = s.engine)
    (s := (s.endSlots p).endLocks p) (fun a d ha => by simpa [State.sameClock] using ha)
    (fun a d k hk => entry_removeSponsor_other hk p) (by simp [State.sameClock]) e
  have hbefore : ((s.endSlots p).endLocks p).entry e = s.entry e := congrFun (entry_of_entries (by simp)) e
  rw [hbefore] at hentry
  have hend : (s.endSession p).entry e = (((s.endSlots p).endLocks p).endSponsorships p).entry e :=
    congrFun (entry_of_entries (by simp [State.endSession])) e
  have hua : a.entryUse e = some u := (congrArg MirrorEntry.use hentry).trans hu
  have hrun : a.pollRunning e = s.pollRunning e := pollRunning_congr hengine (by rw [hentry])
  refine congrArg MirrorEntry.use (hend.trans (hfold.trans ?_))
  rw [removeSponsor_one hua hp h, entry_withSponsors, entry_withSponsors, if_pos rfl, if_pos rfl, hentry, hrun,
    responsored_congr hclock]

/-- What stays of an entry through a change of sponsors and the re-evaluation (R52, R54). -/
theorem entryUse_withSponsors_settle (s : State) (e : EntryId) (u : MirrorUse) (sponsors : PerPort (Option Sponsor)) :
    ∃ v, (s.withSponsors e u sponsors).settle.entryUse e = some v ∧ v.sponsors = sponsors ∧ u.sameHoldings v
      ∧ (v.state = u.state ∨ u.state = .valid ∧ v.state = .stale) := by
  obtain ⟨⟨k1, k2, k3, k4⟩, hsp, hst⟩ := responsored_keeps s (s.pollRunning e) sponsors u
  have huse : (s.withSponsors e u sponsors).entryUse e = some (u.responsored s (s.pollRunning e) sponsors) := by
    rw [State.entryUse, entry_withSponsors, if_pos rfl]
  obtain ⟨v, hv, ⟨v1, v2, v3, v4⟩, hvsp, hvst⟩ := entryUse_settle huse
  exact ⟨v, hv, hvsp.trans hsp, ⟨v1.trans k1, v2.trans k2, v3.trans k3, v4.trans k4⟩, by rwa [hvst]⟩

/-! ### The commands that end a session -/

theorem exec_detach (h : s.takesHeader p = true) (ha : (s.port p).attached = true) :
    exec (.detach p) s = .next ((s.endSession p).settle.respond p ⟨.done, []⟩) := by
  change Host.Outcome.next _ = _
  rw [command_taken h (standing_any) rfl]
  simp only [ha, if_true]
  rfl

theorem exec_attach_again (h : s.takesHeader p = true) (ha : (s.port p).attached = true)
    (hadm : s.params.admitted.has p = true) : exec (.attach p) s
      = .next (((s.endSession p).openSession p).settle.respond p ⟨.done, [nextGeneration (s.port p).generation]⟩) := by
  change Host.Outcome.next _ = _
  rw [command_taken h (standing_any) rfl]
  simp only [attachBody, hadm, ha, if_true]

theorem exec_evictPort {q : Port} (h : s.takesHeader p = true) (ha : (s.port p).attached = true) (hs : s.supervisor = p)
    (hq : (s.port q).attached = true) (hne : q ≠ p) : exec (.evictPort p (BitVec.ofNat 8 q.index.val)) s
      = .next ((s.endSession q).settle.respond p ⟨.done, []⟩) := by
  have hname : (BitVec.ofNat 8 q.index.val).toNat < 4 ∧ Port.ofBits ((BitVec.ofNat 8 q.index.val).extractLsb' 0 2) = q := by
    cases q <;> decide
  have harg : evictArg s.supervisor (BitVec.ofNat 8 q.index.val) = some q := by
    rw [evictArg, hname.2, if_pos ⟨hname.1, hs ▸ hne⟩]
  change Host.Outcome.next _ = _
  rw [command_taken h (standing_supervisor hs ha) harg]
  simp only [hq, if_true]
  rfl

/-- Settles O30: a join and a leaving are each a change of sponsors and the re-evaluation. -/
theorem sponsorsJoinAndLeave : Obligations.SponsorsJoinAndLeave := by
  refine ⟨fun s p ka period flags mask x e u ht ha hb hx hr hu hlow hk => ?_, fun s p b e ht ha hb => ⟨fun hfree => ?_,
    fun u hu => ⟨fun hp => ?_, fun hp => ⟨fun hlast => ?_, fun hmore => ?_⟩⟩⟩, fun s p q e u ht ha hq hu hp hmore => ?_⟩
  · intro z
    obtain ⟨v, hv, hsp, ⟨h1, h2, h3, h4⟩, hst⟩ :=
      entryUse_withSponsors_settle s e u (u.sponsors.set p (some ⟨period.toNat, flags.getLsbD 0, mask⟩))
    have hfind : s.findEntry (keyNamed ka) = some e := findEntry_eq_some.2 ⟨⟨u, hu, hk⟩, by rwa [hk] at hlow⟩
    refine ⟨v, ?_, hv, hsp, h1, h2, h3, h4, ?_, hst, fun d w hd hw => ?_⟩
    · rw [exec_mirrorDefine ht ha rfl hb, mirrorDefineBody_join hx hr hfind]
      simp only [State.joinEntry, hu, setSponsors_eq_withSponsors hu]
      rfl
    · rw [issue_settle, entry_withSponsors, if_pos rfl]
    · have hw' : (s.withSponsors e u (u.sponsors.set p (some ⟨period.toNat, flags.getLsbD 0, mask⟩))).entryUse d
          = some w := by rwa [State.entryUse, entry_withSponsors, if_neg hd]
      obtain ⟨w', hz, -, hsame, -⟩ := entryUse_settle hw'
      exact ⟨w', hz, hsame⟩
  · rw [exec_mirrorDrop ht ha hb]
    simp only [mirrorDropBody, hfree]
    rfl
  · rw [exec_mirrorDrop ht ha hb]
    simp only [mirrorDropBody, hu, hp]
    rfl
  · have hno : ¬ (u.sponsors.get p).isNone = true := by simpa using hp
    rw [exec_mirrorDrop ht ha hb]
    simp only [mirrorDropBody, hu, if_neg hno, removeSponsor_last hu hp hlast]
    rfl
  · intro z
    have hno : ¬ (u.sponsors.get p).isNone = true := by simpa using hp
    obtain ⟨v, hv, hsp, ⟨h1, h2, h3, -⟩, hst⟩ := entryUse_withSponsors_settle s e u (u.sponsors.set p none)
    refine ⟨v, ?_, hv, hsp, h1, h2, h3, hst⟩
    rw [exec_mirrorDrop ht ha hb]
    simp only [mirrorDropBody, hu, if_neg hno, removeSponsor_one hu hp hmore]
    rfl
  · have hleft := entryUse_endSession hu hp hmore
    refine ⟨?_, ?_, fun hne hs => ⟨s.endSession q, exec_evictPort ht ha hs hq hne, hleft⟩⟩
    · rintro rfl
      exact ⟨s.endSession q, exec_detach ht ha, hleft⟩
    · rintro rfl hadm
      refine ⟨(s.endSession q).openSession q, nextGeneration (s.port q).generation, exec_attach_again ht ha hadm, ?_⟩
      rw [entryUse_of_entries (b := s.endSession q) (by simp), hleft]

end Sys2Proof.Machine

/-! ## What keeps the laws of the tables

The laws of the target table, of the mirror table and of the two together, kept from one state to another: by what leaves the
tables, by what changes one record, and by what takes and frees a place. -/

namespace Sys2Proof.Machine

open Sys2Proof

variable {s t : State}

/-- One state keeps the three laws of the tables from another. -/
structure KeepsTableLaws (s t : State) : Prop where
  health : s.healthLaw → t.healthLaw
  mirror : s.mirrorLaw → t.mirrorLaw
  table : s.tableLaw → t.tableLaw

theorem KeepsTableLaws.refl (s : State) : KeepsTableLaws s s := ⟨id, id, id⟩

theorem KeepsTableLaws.trans {z : State} (h : KeepsTableLaws s t) (k : KeepsTableLaws t z) : KeepsTableLaws s z :=
  ⟨k.health ∘ h.health, k.mirror ∘ h.mirror, k.table ∘ h.table⟩

theorem KeepsTableLaws.foldl {β : Type} {f : State → β → State} (hf : ∀ a b, KeepsTableLaws a (f a b)) (l : List β) :
    KeepsTableLaws s (l.foldl f s) :=
  List.foldlRecOn (motive := KeepsTableLaws s) _ _ (.refl s) fun a ha b _ => ha.trans (hf a b)

/-- What leaves both tables keeps their laws. -/
theorem KeepsTableLaws.of_tables (he : t.entries = s.entries) (ht : t.targets = s.targets) : KeepsTableLaws s t := by
  refine ⟨fun h => ?_, fun h => ?_, fun h => ?_⟩
  · rwa [State.healthLaw, target_of_targets ht]
  · rwa [State.mirrorLaw, entryUse_of_entries he]
  · rwa [State.tableLaw, target_of_targets ht, targetAt_of_targets ht, entryUse_of_entries he]

/-- What an address finds, where the addresses are those of before. -/
theorem targetAt_eq_some_of_addr (haddr : ∀ i, (t.target i).map Target.addr = (s.target i).map Target.addr) {a : Byte}
    {x : Target} (hx : s.targetAt a = some x) :
    ∃ i y, s.target i = some x ∧ t.target i = some y ∧ x.addr = a ∧ t.targetAt a = some y := by
  obtain ⟨i, hl⟩ := targetAt_eq_some.1 hx
  obtain ⟨hf, hi, ha, -⟩ := lookup_eq_some hl
  have hi' := haddr i
  rw [hi, Option.map_some, Option.map_eq_some_iff] at hi'
  obtain ⟨y, hy, -⟩ := hi'
  exact ⟨i, y, hi, hy, ha, by rw [State.targetAt, findTarget_congr haddr, hf, Option.bind_some, hy]⟩

/-- With the same addresses declared and the same keys in use, the laws go by the records. -/
theorem KeepsTableLaws.of_records (haddr : ∀ i, (t.target i).map Target.addr = (s.target i).map Target.addr)
    (hkey : ∀ e, (t.entryUse e).map MirrorUse.key = (s.entryUse e).map MirrorUse.key)
    (health : ∀ i x y, s.target i = some x → t.target i = some y → x.healthLaw → y.healthLaw)
    (mirror : ∀ e u v, s.entryUse e = some u → t.entryUse e = some v → u.law → v.law)
    (bind : s.tableLaw → ∀ e u v i x y, s.entryUse e = some u → t.entryUse e = some v → s.target i = some x →
      t.target i = some y → x.addr = u.key.addr → (u.state = .failed ↔ x.health = .quarantined) →
      (v.state = .failed ↔ y.health = .quarantined)) : KeepsTableLaws s t := by
  have declared {i y} (hy : t.target i = some y) : ∃ x, s.target i = some x ∧ x.addr = y.addr := by
    have := haddr i
    rwa [hy, Option.map_some, eq_comm, Option.map_eq_some_iff] at this
  have used {e v} (hv : t.entryUse e = some v) : ∃ u, s.entryUse e = some u ∧ u.key = v.key := by
    have := hkey e
    rwa [hv, Option.map_some, eq_comm, Option.map_eq_some_iff] at this
  refine ⟨fun h i y hy => ?_, fun h e v hv => ?_, fun h => ?_⟩
  · obtain ⟨x, hx, -⟩ := declared hy
    exact health i x y hx hy (h i x hx)
  · obtain ⟨u, hu, -⟩ := used hv
    exact mirror e u v hu hv (h e u hu)
  · obtain ⟨hone, hkeys, hbound⟩ := h
    refine ⟨fun i j y z hy hz ha => ?_, fun e d v w hv hw hk => ?_, fun e v hv => ?_⟩
    · obtain ⟨x, hx, hxa⟩ := declared hy
      obtain ⟨x', hx', hxa'⟩ := declared hz
      exact hone i j x x' hx hx' (by rw [hxa, hxa', ha])
    · obtain ⟨u, hu, huk⟩ := used hv
      obtain ⟨u', hu', huk'⟩ := used hw
      exact hkeys e d u u' hu hu' (by rw [huk, huk', hk])
    · obtain ⟨u, hu, huk⟩ := used hv
      obtain ⟨x, hx, hux⟩ := hbound e u hu
      obtain ⟨i, y, hi, hy, ha, hat⟩ := targetAt_eq_some_of_addr haddr hx
      exact ⟨y, huk ▸ hat, bind ⟨hone, hkeys, hbound⟩ e u v i x y hu hv hi hy ha hux⟩

/-! ### One record -/

/-- A target's record written over so that the laws stay. -/
def Target.keptBy (x y : Target) : Prop :=
  y.addr = x.addr ∧ (x.healthLaw → y.healthLaw) ∧ (y.health = .quarantined ↔ x.health = .quarantined)

/-- An entry's record written over so that the laws stay. -/
def MirrorUse.keptBy (u v : MirrorUse) : Prop :=
  v.key = u.key ∧ (u.law → v.law) ∧ (v.state = .failed ↔ u.state = .failed)

theorem Target.keptBy_refl (x : Target) : x.keptBy x := ⟨rfl, id, Iff.rfl⟩
theorem MirrorUse.keptBy_refl (u : MirrorUse) : u.keptBy u := ⟨rfl, id, Iff.rfl⟩

/-- Records that are kept, one by one, keep the laws. -/
theorem KeepsTableLaws.of_kept {f : TargetId → Target → Target} {g : EntryId → MirrorUse → MirrorUse}
    (ht : ∀ i, t.target i = (s.target i).map (f i)) (he : ∀ e, t.entryUse e = (s.entryUse e).map (g e))
    (hf : ∀ i x, s.target i = some x → x.keptBy (f i x)) (hg : ∀ e u, s.entryUse e = some u → u.keptBy (g e u)) :
    KeepsTableLaws s t := by
  have wrote {i x y} (hx : s.target i = some x) (hy : t.target i = some y) : x.keptBy y := by
    rw [ht, hx, Option.map_some, Option.some.injEq] at hy
    exact hy ▸ hf i x hx
  have wroteUse {e u v} (hu : s.entryUse e = some u) (hv : t.entryUse e = some v) : u.keptBy v := by
    rw [he, hu, Option.map_some, Option.some.injEq] at hv
    exact hv ▸ hg e u hu
  refine .of_records (fun i => ?_) (fun e => ?_) (fun i x y hx hy => (wrote hx hy).2.1)
    (fun e u v hu hv => (wroteUse hu hv).2.1) fun _ e u v i x y hu hv hx hy _ hbound => ?_
  · cases hx : s.target i with
    | none => rw [ht, hx, Option.map_none]
    | some x => rw [ht, hx, Option.map_some, Option.map_some, Option.map_some, (hf i x hx).1]
  · cases hu : s.entryUse e with
    | none => rw [he, hu, Option.map_none]
    | some u => rw [he, hu, Option.map_some, Option.map_some, Option.map_some, (hg e u hu).1]
  · rw [(wroteUse hu hv).2.2, (wrote hx hy).2.2, hbound]

/-- A record of the target table written over. -/
theorem KeepsTableLaws.updTarget (i : TargetId) {f : Target → Target} (hf : ∀ x, s.target i = some x → x.keptBy (f x)) :
    KeepsTableLaws s (s.updTarget i f) := by
  refine .of_kept (f := fun j => if j = i then f else id) (g := fun _ => id) (fun j => ?_) (fun e => ?_) (fun j x hx => ?_)
    fun _ u _ => u.keptBy_refl
  · rw [target_updTarget]
    split
    · next h => rw [h]
    · simp
  · rw [entryUse_of_entries (b := s) (by simp), Option.map_id_fun, id]
  · split
    · next h => exact hf x (h ▸ hx)
    · exact x.keptBy_refl

theorem KeepsTableLaws.setTarget {i : TargetId} {x y : Target} (hx : s.target i = some x) (hk : x.keptBy y) :
    KeepsTableLaws s (s.setTarget i (some y)) := by
  rw [← updTarget_eq hx (fun _ => y)]
  refine .updTarget i fun z hz => ?_
  rw [hx] at hz
  cases hz
  exact hk

/-- A record of the mirror table written over, with whatever else leaves the tables. -/
theorem KeepsTableLaws.of_entry {e : EntryId} {u v : MirrorUse} (ht : t.targets = s.targets)
    (hu : s.entryUse e = some u) (hv : t.entryUse e = some v) (hd : ∀ d, d ≠ e → t.entryUse d = s.entryUse d)
    (hk : u.keptBy v) : KeepsTableLaws s t := by
  refine .of_kept (f := fun _ => id) (g := fun d w => if d = e then v else w) (fun i => ?_) (fun d => ?_)
    (fun _ x _ => x.keptBy_refl) fun d w hw => ?_
  · rw [target_of_targets ht, Option.map_id_fun, id]
  · by_cases h : d = e
    · subst h
      simp [hu, hv]
    · simp [h, hd d h]
  · split
    · next h =>
      rw [h, hu] at hw
      cases hw
      exact hk
    · exact w.keptBy_refl

theorem KeepsTableLaws.setEntry {e : EntryId} {u v : MirrorUse} (i : Byte) (hu : s.entryUse e = some u) (hk : u.keptBy v) :
    KeepsTableLaws s (s.setEntry e ⟨i, some v⟩) :=
  .of_entry (by simp) hu (by simp) (fun d hd => by simp [hd]) hk

theorem KeepsTableLaws.updEntry (e : EntryId) {f : MirrorUse → MirrorUse} (hf : ∀ u, s.entryUse e = some u → u.keptBy (f u)) :
    KeepsTableLaws s (s.updEntry e f) := by
  cases hu : s.entryUse e with
  | none =>
    rw [updEntry_id (f := f) (by simp [hu])]
    exact .refl s
  | some u =>
    rw [updEntry_eq hu]
    exact .setEntry _ hu (hf u hu)

/-! ### A place taken or freed -/

/-- An entry that is freed (R54). -/
theorem KeepsTableLaws.freeEntry (s : State) (e : EntryId) (i : Byte) : KeepsTableLaws s (s.setEntry e ⟨i, none⟩) := by
  have used {d u} (h : (s.setEntry e ⟨i, none⟩).entryUse d = some u) : s.entryUse d = some u := by
    rw [entryUse_setEntry] at h
    split at h
    · cases h
    · exact h
  have hat : (s.setEntry e ⟨i, none⟩).targetAt = s.targetAt := targetAt_of_targets (by simp)
  have htarget : (s.setEntry e ⟨i, none⟩).target = s.target := target_of_targets (by simp)
  refine ⟨fun h => by rwa [State.healthLaw, htarget], fun h d u hu => h d u (used hu), fun ⟨haddr, hkey, hbind⟩ =>
    ⟨by rwa [htarget], fun d d' u u' hu hu' => hkey d d' u u' (used hu) (used hu'), fun d u hu => hat ▸ hbind d u (used hu)⟩⟩

/-- An entry that is taken for a new key on a declared target, FAILED where the target is QUARANTINED (R49, R53). -/
theorem KeepsTableLaws.takeEntry {e : EntryId} {v : MirrorUse} {x : Target} (i : Byte) (hlaw : v.law)
    (hnew : ∀ d u, s.entryUse d = some u → u.key ≠ v.key) (hx : s.targetAt v.key.addr = some x)
    (hbound : v.state = .failed ↔ x.health = .quarantined) : KeepsTableLaws s (s.setEntry e ⟨i, some v⟩) := by
  have hat : (s.setEntry e ⟨i, some v⟩).targetAt = s.targetAt := targetAt_of_targets (by simp)
  have htarget : (s.setEntry e ⟨i, some v⟩).target = s.target := target_of_targets (by simp)
  have used {d u} (h : (s.setEntry e ⟨i, some v⟩).entryUse d = some u) : d = e ∧ u = v ∨ s.entryUse d = some u := by
    rw [entryUse_setEntry] at h
    split at h
    · next hd => exact .inl ⟨hd, (Option.some.inj h).symm⟩
    · exact .inr h
  refine ⟨fun h => by rwa [State.healthLaw, htarget], fun h d u hu => ?_, fun ⟨haddr, hkey, hbind⟩ =>
    ⟨by rwa [htarget], fun d d' u u' hu hu' hk => ?_, fun d u hu => ?_⟩⟩
  · rcases used hu with ⟨-, rfl⟩ | hu
    · exact hlaw
    · exact h d u hu
  · rcases used hu with ⟨hd, hv⟩ | hold <;> rcases used hu' with ⟨hd', hv'⟩ | hold'
    · rw [hd, hd']
    · exact absurd (hk.symm.trans (by rw [hv])) (hnew d' u' hold')
    · exact absurd (hk.trans (by rw [hv'])) (hnew d u hold)
    · exact hkey d d' u u' hold hold' hk
  · rw [hat]
    rcases used hu with ⟨rfl, rfl⟩ | hu
    · exact ⟨x, hx, hbound⟩
    · exact hbind d u hu

/-- A place of the target table written, where no entry is on the address that it had or has (R75, R80). -/
theorem KeepsTableLaws.replaceTarget {i : TargetId} {v : Option Target} {a : Byte}
    (hs : ∀ x, s.target i = some x → x.addr = a) (hv : ∀ y, v = some y → y.addr = a ∧ y.healthLaw)
    (hnew : ∀ y, v = some y → ∀ j x, s.target j = some x → x.addr ≠ a)
    (hentry : s.tableLaw → ∀ e u, s.entryUse e = some u → u.key.addr ≠ a) : KeepsTableLaws s (s.setTarget i v) := by
  have huse : (s.setTarget i v).entryUse = s.entryUse := entryUse_of_entries (by simp)
  have declared {j x} (h : (s.setTarget i v).target j = some x) : j = i ∧ v = some x ∨ s.target j = some x := by
    rw [target_setTarget] at h
    split at h
    · next hj => exact .inl ⟨hj, h⟩
    · exact .inr h
  refine ⟨fun h j x hx => ?_, fun h => by rwa [State.mirrorLaw, huse], fun h => ?_⟩
  · rcases declared hx with ⟨-, hx⟩ | hx
    · exact (hv x hx).2
    · exact h j x hx
  · obtain ⟨haddr, hkey, hbind⟩ := h
    refine ⟨fun j j' x x' hx hx' ha => ?_, by rwa [huse], fun e u hu => ?_⟩
    · rcases declared hx with ⟨hj, hxv⟩ | hold <;> rcases declared hx' with ⟨hj', hxv'⟩ | hold'
      · rw [hj, hj']
      · exact absurd (ha.symm.trans (hv x hxv).1) (hnew x hxv j' x' hold')
      · exact absurd (ha.trans (hv x' hxv').1) (hnew x' hxv' j x hold)
      · exact haddr j j' x x' hold hold' ha
    · rw [huse] at hu
      obtain ⟨x, hx, hbound⟩ := hbind e u hu
      have hne := hentry ⟨haddr, hkey, hbind⟩ e u hu
      refine ⟨x, ?_, hbound⟩
      rw [targetAt_setTarget_of_ne (fun y hy hya => hne (hya.symm.trans (hs y hy)))
        fun y hy hya => hne (hya.symm.trans (hv y hy).1), hx]

/-- A device with empty tables has their laws. -/
theorem KeepsTableLaws.of_empty (he : ∀ e, t.entryUse e = none) (ht : ∀ i, t.target i = none) : KeepsTableLaws s t := by
  refine ⟨fun _ i x hx => ?_, fun _ e u hu => ?_, fun _ => ⟨fun i _ x _ hx => ?_, fun e _ u _ hu => ?_, fun e u hu => ?_⟩⟩
  · simp [ht] at hx
  · simp [he] at hu
  · simp [ht] at hx
  · simp [he] at hu
  · simp [he] at hu

end Sys2Proof.Machine

/-! ## The laws of the tables through the blocks

Each operation on the tables keeps their laws: by what it does to one record. -/

namespace Sys2Proof.Machine

open Sys2Proof

variable {s t : State}

/-! ### The record of an entry -/

/-- The law of an entry that is not FAILED reads sponsors, state, value and stale timer alone. -/
theorem law_of_same {u v : MirrorUse} (h : u.law) (hf : u.state ≠ .failed) (hsp : v.sponsors = u.sponsors)
    (hst : v.state = u.state) (hval : v.value = u.value) (htm : v.staleTimer = u.staleTimer) : v.law := by
  obtain ⟨hsome, hpriming, hheld, htimer, -⟩ := h
  rw [MirrorUse.law, hsp, hst, hval, htm]
  exact ⟨hsome, hpriming, hheld, htimer, fun h => absurd h hf⟩

/-- An entry with a due timer, a pending poll or one that fell due meanwhile is not FAILED (R67). -/
theorem not_failed_of_due {u : MirrorUse} (h : u.law)
    (hdue : u.dueTimer ≠ none ∨ u.pending ≠ none ∨ u.dueAfterRun ≠ none) : u.state ≠ .failed := by
  obtain ⟨-, -, -, -, hfail⟩ := h
  intro hf
  obtain ⟨-, htimer, hpending, hafter⟩ := hfail hf
  exact hdue.elim (· htimer) (·.elim (· hpending) (· hafter))

theorem recomputed_law (s : State) (running : Bool) {u : MirrorUse} (h : u.law) : (u.recomputed s running).law := by
  by_cases hf : u.state = .failed
  · rwa [recomputed_of_kept (.inl hf)]
  · obtain ⟨⟨-, hval, -⟩, hsp, hst, htm⟩ := recomputed_keeps s running u
    exact law_of_same h hf hsp hst hval htm

theorem rechecked_law (s : State) {u : MirrorUse} (h : u.law) : (u.rechecked s).law := by
  by_cases hv : u.state = .valid
  · obtain ⟨hsome, hpriming, hheld, htimer, hfail⟩ := h
    obtain ⟨v, hval⟩ := Option.isSome_iff_exists.1 (hheld (.inl hv))
    rw [rechecked_of_valid hv hval]
    split <;> simp_all [MirrorUse.law]
  · rwa [rechecked_of_not_valid hv]

theorem keptBy_rechecked (s : State) (u : MirrorUse) : u.keptBy (u.rechecked s) := by
  obtain ⟨⟨hkey, -⟩, -, hst⟩ := rechecked_keeps s u
  refine ⟨hkey, rechecked_law s, ?_⟩
  rcases hst with h | ⟨h, h'⟩
  · rw [h]
  · simp [h, h']

/-- Another sponsor set keeps the law while it has a sponsor (R50). -/
theorem keptBy_responsored (s : State) (running : Bool) {sponsors : PerPort (Option Sponsor)}
    (hsome : ∃ p, (sponsors.get p).isSome = true) (u : MirrorUse) : u.keptBy (u.responsored s running sponsors) := by
  obtain ⟨⟨hkey, -⟩, -, hst⟩ := responsored_keeps s running sponsors u
  refine ⟨hkey, fun h => ?_, ?_⟩
  · have hchanged : MirrorUse.law { u with sponsors := sponsors } := ⟨hsome, h.2⟩
    simp only [MirrorUse.responsored]
    split
    · exact recomputed_law s running hchanged
    · exact rechecked_law s (recomputed_law s running hchanged)
  · rcases hst with h | ⟨h, h'⟩
    · rw [h]
    · simp [h, h']

theorem keptBy_started (now : Nat) (m : Maint) {u : MirrorUse} (hp : u.pending ≠ none) : u.keptBy (u.started now m) := by
  obtain ⟨⟨hkey, hval, -⟩, hsp, hst, htm⟩ := started_keeps now m u
  exact ⟨hkey, fun h => law_of_same h (not_failed_of_due h (.inr (.inl hp))) hsp hst hval htm, by rw [hst]⟩

theorem fallen_keeps (s : State) (u : MirrorUse) : (u.fallen s).key = u.key ∧ (u.fallen s).state = u.state
    ∧ (u.law → (u.fallen s).law) := by
  simp only [MirrorUse.fallen]
  split
  · exact ⟨rfl, rfl, id⟩
  · next due hd => exact ⟨rfl, rfl, fun h => law_of_same h (not_failed_of_due h (by simp [hd])) rfl rfl rfl rfl⟩

theorem keptBy_recorded (s : State) (o : TransferOutcome) (u : MirrorUse) :
    u.keptBy (MirrorUse.fallen s { u with lastOutcome := some o }) := by
  obtain ⟨hkey, hst, hlaw⟩ := fallen_keeps s { u with lastOutcome := some o }
  exact ⟨hkey, fun h => hlaw h, by rw [hst]⟩

theorem stored_law (s : State) (data : List Byte) (q : Half) {u : MirrorUse} (h : u.law) : (u.stored s data q).law := by
  obtain ⟨hsome, -⟩ := h
  exact ⟨hsome, by simp [MirrorUse.stored], by simp [MirrorUse.stored], by simp [MirrorUse.stored],
    by simp [MirrorUse.stored]⟩

theorem keptBy_stored (s : State) (data : List Byte) (q : Half) {u : MirrorUse} (hf : u.state ≠ .failed) :
    u.keptBy ((u.stored s data q).fallen s) := by
  obtain ⟨hkey, hst, hlaw⟩ := fallen_keeps s (u.stored s data q)
  refine ⟨hkey, fun h => hlaw (stored_law s data q h), ?_⟩
  rw [hst]
  simp [MirrorUse.stored, hf]

/-- A pending poll that is rewritten (R40, R42). -/
theorem keptBy_mapPending (f : Maint → Maint) (u : MirrorUse) : u.keptBy { u with pending := u.pending.map f } := by
  refine ⟨rfl, fun ⟨hsome, hpriming, hheld, htimer, hfail⟩ => ⟨hsome, hpriming, hheld, htimer, fun hf => ?_⟩, Iff.rfl⟩
  obtain ⟨hnext, hdue, hpending, hafter⟩ := hfail hf
  exact ⟨hnext, hdue, by simp [hpending], hafter⟩

theorem afterOnset_law (a : Byte) {u : MirrorUse} (h : u.law) : (u.afterOnset a).law := by
  simp only [MirrorUse.afterOnset]
  split
  · obtain ⟨hsome, -⟩ := h
    exact ⟨hsome, by simp, by simp, by simp, by simp⟩
  · exact h

theorem afterReturn_law (s : State) (a : Byte) {u : MirrorUse} (h : u.law) : (u.afterReturn s a).law := by
  simp only [MirrorUse.afterReturn, MirrorUse.stateOnReturn]
  split
  · next hr =>
    obtain ⟨hsome, -, -, htimer, -⟩ := h
    have hstopped : u.staleTimer = none := by simpa [hr.2] using htimer
    refine ⟨hsome, ?_, ?_, ?_, ?_⟩ <;> cases hv : u.value <;> simp [hstopped]
  · exact h

theorem keptBy_goStale {u : MirrorUse} (hv : u.state = .valid) :
    u.keptBy { u with state := .stale, staleTimer := none } := by
  refine ⟨rfl, fun ⟨hsome, _, hheld, _⟩ => ?_, by simp [hv]⟩
  exact ⟨hsome, by simp, fun _ => hheld (.inl hv), by simp, by simp⟩

/-! ### The record of a target -/

/-- A probe written over, which stays absent out of quarantine (R89). -/
theorem keptBy_probe {x : Target} {probe : Option Maint}
    (h : x.healthLaw → x.health ≠ .quarantined → probe = none) : x.keptBy { x with probe := probe } :=
  ⟨rfl, fun hlaw =>
    have ⟨hthreshold, hmax, honline, hsuspect, hdue, hidle⟩ := hlaw
    ⟨hthreshold, hmax, honline, hsuspect, hdue, fun hq => ⟨(hidle hq).1, h hlaw hq⟩⟩, Iff.rfl⟩

/-- A pending probe that is rewritten (R40, R42). -/
theorem keptBy_mapProbe (f : Maint → Maint) (x : Target) : x.keptBy { x with probe := x.probe.map f } :=
  keptBy_probe fun hlaw hq => by
    obtain ⟨-, -, -, -, -, hidle⟩ := hlaw
    simp [(hidle hq).2]

/-- A lock record written over, which the health does not read (R83). -/
theorem keptBy_lock (x : Target) (lock : Option Hold) (waiters : List Waiter) :
    x.keptBy { x with lock := lock, waiters := waiters } := ⟨rfl, id, Iff.rfl⟩

/-- A failure counted below the threshold, or in quarantine (R85). -/
theorem keptBy_counted {x : Target} {n : Nat} (hn : n = min (x.failures + 1) 255)
    (h : x.health = .quarantined ∨ x.health = .suspect ∧ n < x.threshold) : x.keptBy { x with failures := n } := by
  refine ⟨rfl, fun ⟨hthreshold, _, _, _, hdue, hidle⟩ => ?_, Iff.rfl⟩
  refine ⟨hthreshold, by simp only [Config.countMax]; omega, fun ho => ?_, fun hs => ?_, hdue, hidle⟩
  · rcases h with h | ⟨h, -⟩ <;> rw [h] at ho <;> cases ho
  · rcases h with h | ⟨-, hlt⟩
    · rw [h] at hs
      cases hs
    · exact ⟨by simp only; omega, hlt⟩

/-- The first failure below the threshold takes an ONLINE target to SUSPECT (R85). -/
theorem keptBy_suspect {x : Target} {n : Nat} (hn : n = min (x.failures + 1) 255) (h : x.health = .online)
    (hlt : n < x.threshold) : x.keptBy { x with failures := n, health := .suspect } := by
  refine ⟨rfl, fun ⟨hthreshold, _, _, _, hdue, hidle⟩ => ?_, by simp [h]⟩
  have hq : x.health ≠ .quarantined := by simp [h]
  have hnodue : ¬ x.probeDue.isSome = true := fun hs => hq (hdue.2 hs)
  exact ⟨hthreshold, by simp only [Config.countMax]; omega, by simp, fun _ => ⟨by simp only; omega, hlt⟩,
    by simpa using hnodue, fun _ => hidle hq⟩

/-- A success out of quarantine leaves a target ONLINE with count 0 (R86, R91). -/
theorem keptBy_online {x : Target} (h : x.health ≠ .quarantined) : x.keptBy { x with failures := 0, health := .online } := by
  refine ⟨rfl, fun ⟨hthreshold, _, _, _, hdue, hidle⟩ => ?_, by simp [h]⟩
  have hnodue : ¬ x.probeDue.isSome = true := fun hs => h (hdue.2 hs)
  exact ⟨hthreshold, by simp, fun _ => rfl, by simp, by simpa using hnodue, fun _ => hidle h⟩

/-- The probe schedule of a QUARANTINED target (R88, R89). -/
theorem keptBy_scheduled {x : Target} (h : x.health = .quarantined) (tm : Timer) (due : Nat) :
    x.keptBy { x with probeTimer := some tm, probeDue := some due } :=
  ⟨rfl, fun ⟨hthreshold, hmax, honline, hsuspect, _, _⟩ =>
    ⟨hthreshold, hmax, honline, hsuspect, by simp [h], fun hq => absurd h hq⟩, Iff.rfl⟩

theorem quarantinedAt_law {x : Target} {now : Nat} (hthreshold : 1 ≤ x.threshold) (hmax : x.failures ≤ Config.countMax) :
    (x.quarantinedAt now).healthLaw :=
  ⟨hthreshold, hmax, by simp [Target.quarantinedAt], by simp [Target.quarantinedAt], by simp [Target.quarantinedAt],
    by simp [Target.quarantinedAt]⟩

theorem released_law {x : Target} (h : x.healthLaw) : x.released.healthLaw := by
  obtain ⟨hthreshold, -⟩ := h
  exact ⟨hthreshold, by simp [Target.released], by simp [Target.released], by simp [Target.released],
    by simp [Target.released], by simp [Target.released]⟩

/-! ### The mirror table -/

theorem KeepsTableLaws.withSponsors {e : EntryId} {u : MirrorUse} {sponsors : PerPort (Option Sponsor)}
    (hu : s.entryUse e = some u) (hsome : ∃ p, (sponsors.get p).isSome = true) :
    KeepsTableLaws s (s.withSponsors e u sponsors) := by
  refine .of_entry (v := u.responsored s (s.pollRunning e) sponsors) ?_ hu ?_ (fun d hd => ?_)
    (keptBy_responsored s _ hsome u)
  · simp [← setSponsors_eq_withSponsors hu]
  · rw [State.entryUse, entry_withSponsors, if_pos rfl]
  · rw [State.entryUse, entry_withSponsors, if_neg hd, State.entryUse]

theorem KeepsTableLaws.removeSponsor (s : State) (e : EntryId) (p : Port) : KeepsTableLaws s (s.removeSponsor e p) := by
  cases hu : s.entryUse e with
  | none =>
    rw [removeSponsor_free hu]
    exact .refl s
  | some u =>
    by_cases hp : u.sponsors.get p = none
    · rw [removeSponsor_absent hu hp]
      exact .refl s
    · by_cases hrest : ∃ q, q ≠ p ∧ u.sponsors.get q ≠ none
      · rw [removeSponsor_one hu hp hrest]
        obtain ⟨q, hq, hs⟩ := hrest
        exact .withSponsors hu ⟨q, by simpa [hq] using Option.isSome_iff_ne_none.2 hs⟩
      · push Not at hrest
        rw [removeSponsor_last hu hp hrest]
        exact .freeEntry s e _

theorem KeepsTableLaws.recheckAllStale (s : State) : KeepsTableLaws s s.recheckAllStale :=
  .of_kept (f := fun _ => id) (g := fun _ => MirrorUse.rechecked s)
    (fun i => by rw [target_of_targets (b := s) (by simp), Option.map_id_fun, id])
    (fun e => congrArg MirrorEntry.use (entry_recheckAllStale s e)) (fun _ x _ => x.keptBy_refl)
    fun _ u _ => keptBy_rechecked s u

theorem KeepsTableLaws.completePoll (s : State) (e : EntryId) (i : Byte) (o : TransferOutcome) (data : List Byte) :
    KeepsTableLaws s (s.completePoll e i o data) := by
  by_cases hd : s.entryUse e = none ∨ (s.entry e).issue ≠ i
  · rw [completePoll_discarded hd]
    exact .refl s
  · push Not at hd
    obtain ⟨hu, rfl⟩ := hd
    obtain ⟨u, hu⟩ := Option.ne_none_iff_exists'.1 hu
    by_cases hr : o ≠ .ok ∨ u.state = .failed
    · rw [completePoll_recorded hu hr]
      exact .setEntry _ hu (keptBy_recorded s o u)
    · push Not at hr
      obtain ⟨rfl, hf⟩ := hr
      have hstored := KeepsTableLaws.setEntry (s.entry e).issue hu (keptBy_stored s data (u.nextSeqNo data) hf)
      rw [completePoll_stored hu hf]
      split
      · exact hstored.trans (.of_tables (by simp) (by simp))
      · exact hstored.trans (.of_tables (by simp) (by simp))

theorem KeepsTableLaws.repend (s : State) (e : EntryId) (i : Byte) (m : Maint) : KeepsTableLaws s (s.repend e i m) := by
  simp only [State.repend]
  split
  · exact .refl s
  · next u hu =>
    split
    · next h =>
      rw [updEntry_eq hu]
      exact .setEntry _ hu ⟨rfl, fun hlaw => law_of_same hlaw h.2 rfl rfl rfl rfl, Iff.rfl⟩
    · exact .refl s

/-! ### The dispatcher -/

theorem KeepsTableLaws.select (s : State) : KeepsTableLaws s s.select := by
  simp only [State.select]
  split
  · split
    · exact .refl s
    · next c x _ =>
      split
      · exact .refl s
      · next w hw =>
        have hpointers : KeepsTableLaws s { s with pointers := s.pointers.set c x } := .of_tables rfl rfl
        refine hpointers.trans ?_
        cases w with
        | request n =>
          simp only [State.startWork]
          split
          · exact .refl _
          · exact .of_tables (by simp) (by simp)
        | probe i a m =>
          refine .trans (t := State.updTarget _ i fun x => { x with probe := none }) (.updTarget i fun x _ => ?_)
            (.of_tables rfl rfl)
          exact keptBy_probe (x := x) fun _ _ => rfl
        | poll e i k m =>
          obtain ⟨u, hu, hp⟩ := poll_of_candidate hw
          refine .trans (t := State.updEntry _ e (MirrorUse.started s.now m)) (.updEntry e fun v hv => ?_)
            (.of_tables rfl rfl)
          have hv : s.entryUse e = some v := hv
          rw [State.entryUse, hu] at hv
          cases hv
          exact keptBy_started s.now m (by simp [hp])
  · exact .refl s

theorem KeepsTableLaws.settle (h : KeepsTableLaws s t) : KeepsTableLaws s t.settle :=
  h.trans (.trans (.of_tables (by simp) (by simp)) (.select t.notLockedAll))

theorem KeepsTableLaws.ageOne (s : State) (w : Waiting) : KeepsTableLaws s (s.ageOne w) := by
  cases w with
  | slot n => exact .of_tables (by simp [State.ageOne]) (by simp [State.ageOne])
  | poll e => exact .updEntry e fun u _ => keptBy_mapPending _ u
  | probe i => exact .updTarget i fun x _ => keptBy_mapProbe _ x

end Sys2Proof.Machine

/-! ## The target table through the blocks (O59)

Quarantine takes a target and its entries together; every other write of a target leaves its address and its health. -/

namespace Sys2Proof.Machine

open Sys2Proof

variable {s t : State}

/-! ### Quarantine (R67, R68, R88, R90) -/

/-- A target whose health changes together with its entries: those on its address are FAILED after it exactly where it is
QUARANTINED, and no other entry changes. -/
theorem KeepsTableLaws.of_rehealth {i : TargetId} {x y : Target} {g : MirrorUse → MirrorUse} (hx : s.target i = some x)
    (ht : ∀ j, t.target j = if j = i then some y else s.target j) (he : ∀ e, t.entryUse e = (s.entryUse e).map g)
    (ha : y.addr = x.addr) (hy : x.healthLaw → y.healthLaw) (hkey : ∀ u, (g u).key = u.key)
    (hlaw : ∀ u : MirrorUse, u.law → (g u).law) (hother : ∀ u : MirrorUse, u.key.addr ≠ x.addr → g u = u)
    (hon : ∀ u : MirrorUse, u.key.addr = x.addr → ((g u).state = .failed ↔ y.health = .quarantined)) :
    KeepsTableLaws s t := by
  have wrote {e u v} (hu : s.entryUse e = some u) (hv : t.entryUse e = some v) : v = g u := by
    rw [he, hu, Option.map_some, Option.some.injEq] at hv
    exact hv.symm
  have target_cases {j x' y'} (hx' : s.target j = some x') (hy' : t.target j = some y') :
      j = i ∧ x' = x ∧ y' = y ∨ j ≠ i ∧ y' = x' := by
    rw [ht] at hy'
    split at hy'
    · next hj =>
      rw [hj, hx] at hx'
      exact .inl ⟨hj, (Option.some.inj hx').symm, (Option.some.inj hy').symm⟩
    · next hj =>
      rw [hx'] at hy'
      exact .inr ⟨hj, (Option.some.inj hy').symm⟩
  refine .of_records (fun j => ?_) (fun e => ?_) (fun j x' y' hx' hy' h => ?_) (fun e u v hu hv h => ?_)
    fun ⟨haddr, _, _⟩ e u v j x' y' hu hv hx' hy' hj hbound => ?_
  · rw [ht]
    split
    · next hj => rw [hj, hx, Option.map_some, Option.map_some, ha]
    · rfl
  · rw [he]
    cases s.entryUse e <;> simp [hkey]
  · rcases target_cases hx' hy' with ⟨-, rfl, rfl⟩ | ⟨-, rfl⟩
    · exact hy h
    · exact h
  · rw [wrote hu hv]
    exact hlaw u h
  · rw [wrote hu hv]
    rcases target_cases hx' hy' with ⟨-, rfl, rfl⟩ | ⟨hne, rfl⟩
    · exact hon u hj.symm
    · rw [hother u fun hux => hne (haddr j i _ x hx' hx (hj.trans hux))]
      exact hbound

/-- Quarantine onset on a target whose record has just been written: count, threshold and port sets may have changed, so that
the record between does not keep its law (R79, R85, R88). -/
theorem KeepsTableLaws.quarantineOnset {i : TargetId} {x y : Target} (hx : s.target i = some x) (ha : y.addr = x.addr)
    (hy : x.healthLaw → 1 ≤ y.threshold ∧ y.failures ≤ Config.countMax) :
    KeepsTableLaws s ((s.setTarget i (some y)).quarantineOnset i) := by
  have hset : (s.setTarget i (some y)).target i = some y := by simp
  have huse : (s.setTarget i (some y)).entryUse = s.entryUse := entryUse_of_entries (by simp)
  refine .of_rehealth (y := y.quarantinedAt (s.setTarget i (some y)).now) (g := MirrorUse.afterOnset y.addr) hx
    (fun j => ?_) (fun e => ?_) ha (fun h => quarantinedAt_law (hy h).1 (hy h).2) (fun u => ?_) (fun u => afterOnset_law _)
    (fun u hu => if_neg (ha ▸ hu)) fun u hu => ?_
  · rw [target_quarantineOnset hset, target_setTarget]
    split <;> rfl
  · rw [State.entryUse, entry_quarantineOnset hset, huse]
  · simp only [MirrorUse.afterOnset]
    split <;> rfl
  · simp [MirrorUse.afterOnset, Target.quarantinedAt, hu, ha]

theorem KeepsTableLaws.quarantineEnd (s : State) (i : TargetId) : KeepsTableLaws s (s.quarantineEnd i) := by
  cases hx : s.target i with
  | none =>
    simp only [State.quarantineEnd, hx]
    exact .refl s
  | some x =>
    refine .of_rehealth (y := x.released) (g := MirrorUse.afterReturn s x.addr) hx (target_quarantineEnd hx)
      (fun e => congrArg MirrorEntry.use (entry_quarantineEnd hx e)) rfl released_law (fun u => ?_)
      (fun u => afterReturn_law s _) (fun u hu => if_neg fun h => hu h.1) fun u hu => ?_
    · simp only [MirrorUse.afterReturn]
      split <;> rfl
    · have hreturned : u.stateOnReturn ≠ .failed := by
        simp only [MirrorUse.stateOnReturn]
        split <;> simp
      have hstate : (u.afterReturn s x.addr).state ≠ .failed := by
        simp only [MirrorUse.afterReturn]
        split
        · exact hreturned
        · next h => exact fun hf => h ⟨hu, hf⟩
      simp [hstate, Target.released]

/-! ### Accounting and the probe schedule (R84, R85, R86, R89) -/

theorem KeepsTableLaws.countFailure (s : State) (i : TargetId) : KeepsTableLaws s (s.countFailure i) := by
  cases hx : s.target i with
  | none =>
    simp only [State.countFailure, hx]
    exact .refl s
  | some x =>
    obtain ⟨n, hn⟩ : ∃ n, n = min (x.failures + 1) 255 := ⟨_, rfl⟩
    by_cases hcounted : x.health = .quarantined ∨ x.health = .suspect ∧ n < x.threshold
    · rw [countFailure_counted hx hn hcounted]
      exact .setTarget hx (keptBy_counted hn hcounted)
    · have hq : x.health ≠ .quarantined := fun h => hcounted (.inl h)
      by_cases hle : x.threshold ≤ n
      · rw [countFailure_onset hx hn hq hle]
        exact .quarantineOnset (y := { x with failures := n }) hx rfl fun ⟨hthreshold, _⟩ =>
          ⟨hthreshold, by simp only [Config.countMax]; omega⟩
      · have ho : x.health = .online := by
          cases h : x.health with
          | online => rfl
          | suspect => exact absurd (.inr ⟨h, Nat.not_le.1 hle⟩) hcounted
          | quarantined => exact absurd h hq
        rw [countFailure_suspect hx hn ho (Nat.not_le.1 hle)]
        exact (KeepsTableLaws.setTarget hx (keptBy_suspect hn ho (Nat.not_le.1 hle))).trans (.of_tables (by simp) (by simp))

theorem KeepsTableLaws.countSuccess (s : State) (i : TargetId) : KeepsTableLaws s (s.countSuccess i) := by
  cases hx : s.target i with
  | none =>
    simp only [State.countSuccess, hx]
    exact .refl s
  | some x =>
    rw [countSuccess_eq hx]
    split
    · exact .quarantineEnd s i
    · next hq => exact .setTarget hx (keptBy_online hq)

theorem KeepsTableLaws.account (h : KeepsTableLaws s t) (a : Byte) (o : TransferOutcome) (b : Bool) :
    KeepsTableLaws s (t.account a o b) := by
  simp only [State.account]
  split
  · exact h
  · split
    · exact h.trans (.countSuccess t _)
    · exact h.trans (.countFailure t _)
    · exact h

theorem KeepsTableLaws.reschedule (h : KeepsTableLaws s t) (i : TargetId) : KeepsTableLaws s (t.reschedule i) := by
  simp only [State.reschedule]
  split
  · next hq =>
    refine h.trans (.updTarget i fun x hx => keptBy_scheduled ?_ _ _)
    simpa [hx] using hq
  · exact h

theorem KeepsTableLaws.reprobe (s : State) (i : TargetId) (m : Maint) : KeepsTableLaws s (s.reprobe i m) :=
  .updTarget i fun x _ => by
    split
    · next hq => exact keptBy_probe fun _ h => absurd hq h
    · exact x.keptBy_refl

/-! ### Locks and sessions (R101, R106, R160) -/

theorem KeepsTableLaws.grant (s : State) (i : TargetId) (p : Port) (n : Nat) : KeepsTableLaws s (s.grant i p n) :=
  .updTarget i fun x _ => keptBy_lock x _ _

theorem KeepsTableLaws.leaveWait (s : State) (i : TargetId) (p : Port) : KeepsTableLaws s (s.leaveWait i p) :=
  .updTarget i fun x _ => keptBy_lock x _ _

theorem KeepsTableLaws.grantNext (s : State) (i : TargetId) : KeepsTableLaws s (s.grantNext i) := by
  simp only [State.grantNext]
  split
  · exact .refl s
  · split
    · exact .refl s
    · next w ws _ =>
      have hpopped : KeepsTableLaws s (s.updTarget i fun x => { x with waiters := ws }) :=
        .updTarget i fun x _ => keptBy_lock x _ _
      exact hpopped.trans ((KeepsTableLaws.grant _ i w.port w.lease).trans (.of_tables (by simp) (by simp)))

theorem KeepsTableLaws.release (s : State) (i : TargetId) (p : Port) (c : Option LockEnd) :
    KeepsTableLaws s (s.release i p c) := by
  have hopened : KeepsTableLaws s (s.updTarget i fun x => { x with lock := none }) :=
    .updTarget i fun x _ => keptBy_lock x _ _
  simp only [State.release]
  split
  · exact .refl s
  · refine (hopened.trans ?_).trans (.grantNext _ i)
    cases c <;> exact .of_tables (by simp) (by simp)

theorem KeepsTableLaws.endLock (s : State) (p : Port) (i : TargetId) : KeepsTableLaws s (s.endLock p i) := by
  simp only [State.endLock]
  split
  · exact .refl s
  · split
    · exact .release s i p none
    · exact .leaveWait s i p

theorem KeepsTableLaws.endSession (s : State) (p : Port) : KeepsTableLaws s (s.endSession p) := by
  have hslots : KeepsTableLaws s (s.endSlots p) := .of_tables (by simp) (by simp)
  have hlocks : KeepsTableLaws s ((s.endSlots p).endLocks p) :=
    hslots.trans (.foldl (fun a i => .endLock a p i) _)
  have hsponsors : KeepsTableLaws s (((s.endSlots p).endLocks p).endSponsorships p) :=
    hlocks.trans (.foldl (fun a e => .removeSponsor a e p) _)
  exact hsponsors.trans (.of_tables (by simp [State.endSession]) (by simp [State.endSession]))

/-! ### The engine and the monitor -/

theorem KeepsTableLaws.deliver (h : KeepsTableLaws s t) (w : Work) (r : Report) : KeepsTableLaws s (t.deliver w r) := by
  cases w with
  | request n =>
    simp only [State.deliver]
    split
    · exact h
    · exact (h.trans (.of_tables (by simp) (by simp))).account _ _ _
  | poll e i k m => exact (h.trans (.completePoll t e i _ _)).account _ _ _
  | probe i a m => exact (h.account a _ _).reschedule i

theorem KeepsTableLaws.finishTransfer (s : State) (w : Work) (r : Report) : KeepsTableLaws s (s.finishTransfer w r) :=
  (KeepsTableLaws.deliver (.of_tables (by simp) (by simp)) w r).settle

theorem KeepsTableLaws.loseRequest (s : State) (n : SlotId) (b : Nat) (a : Bool) :
    KeepsTableLaws s (s.loseRequest n b a) := by
  simp only [State.loseRequest]
  split
  · exact .refl s
  · have hcounted : KeepsTableLaws s (s.updRequest n fun r => { r with losses := r.losses + 1 }) :=
      .of_tables (by simp) (by simp)
    split
    · exact hcounted.deliver _ _
    · split
      · exact hcounted.deliver _ _
      · split
        · exact .of_tables (by simp) (by simp)
        · split
          · exact .of_tables (by simp) (by simp)
          · exact hcounted.deliver _ _

theorem KeepsTableLaws.loseTransfer (s : State) (w : Work) (l : Lines) (b : Nat) (a : Bool) :
    KeepsTableLaws s (s.loseTransfer w l b a) := by
  have hlost : KeepsTableLaws s ((s.setEngine .idle).reachForeign l) := .of_tables (by simp) (by simp)
  refine KeepsTableLaws.settle ?_
  cases w with
  | request n => exact hlost.trans (.loseRequest _ n b a)
  | poll e i k m =>
    dsimp only
    split
    · exact hlost.trans (.repend _ e i m)
    · exact hlost.deliver _ _
  | probe i x m =>
    dsimp only
    split
    · exact hlost.trans (.reprobe _ i m)
    · exact hlost.deliver _ _

theorem KeepsTableLaws.nackAddress (s : State) (f : Transfer) : KeepsTableLaws s (s.nackAddress f) := by
  simp only [State.nackAddress]
  split
  · exact .of_tables (by simp) (by simp)
  · exact .finishTransfer s _ _

theorem KeepsTableLaws.endTransfer (s : State) (f : Transfer) (how : TransferEnd) :
    KeepsTableLaws s (s.endTransfer f how) := by
  have ended : KeepsTableLaws s (match (s.shape f.work).bind fun sh => sh.report (s.abortPending f.work) (s.abortStands f) how
      with | none => s | some r => s.finishTransfer f.work r) := by
    split
    · exact .refl s
    · exact .finishTransfer s _ _
  cases how with
  | addressNack => exact .nackAddress s f
  | finished | dataNack | aborted => exact ended

theorem KeepsTableLaws.reachFree_settle (s : State) (g : Engine) : KeepsTableLaws s ((s.setEngine g).reachFree).settle :=
  KeepsTableLaws.settle (.of_tables (by simp) (by simp))

theorem KeepsTableLaws.endAttempt (s : State) (l : Lines) : KeepsTableLaws s (s.endAttempt l) := by
  simp only [State.endAttempt]
  split
  · exact .reachFree_settle s .idle
  · split <;> exact .of_tables (by simp) (by simp)

theorem KeepsTableLaws.hangExpires (s : State) : KeepsTableLaws s s.hangExpires := by
  simp only [State.hangExpires]
  split
  case h_2 =>
    split
    · exact KeepsTableLaws.settle (.of_tables (by simp) (by simp))
    · exact .of_tables (by simp) (by simp)
  case h_1 | h_3 => split <;> exact .of_tables (by simp) (by simp)
  all_goals exact .of_tables (by simp) (by simp)

theorem KeepsTableLaws.retimeHang (s : State) : KeepsTableLaws s s.retimeHang := by
  simp only [State.retimeHang]
  split
  · exact .refl s
  · next tm _ =>
    have hretimed : KeepsTableLaws s (s.setMonitor { s.monitor with hang := some ⟨tm.setAt, s.params.hangLimit⟩ }) :=
      .of_tables (by simp) (by simp)
    split
    · exact hretimed.trans (.hangExpires _)
    · exact hretimed

theorem KeepsTableLaws.observeStart (s : State) : KeepsTableLaws s s.observeStart := by
  simp only [State.observeStart]
  split
  · split
    · exact .loseTransfer s _ _ _ _
    · split <;> exact .of_tables (by simp) (by simp)
  · exact .refl s

theorem KeepsTableLaws.observeStop (s : State) : KeepsTableLaws s s.observeStop := by
  simp only [State.observeStop]
  split
  · split
    case h_1 | h_2 | h_3 => exact .reachFree_settle s .idle
    all_goals exact .of_tables (by simp) (by simp)
  · exact .refl s

theorem KeepsTableLaws.observeOther (s : State) (l : Lines) : KeepsTableLaws s (s.observeOther l) := by
  simp only [State.observeOther]
  split
  case h_2 =>
    split
    · exact .loseTransfer s _ _ _ _
    · exact .of_tables (by simp) (by simp)
  case h_1 => split <;> exact .of_tables (by simp) (by simp)
  all_goals exact .of_tables (by simp) (by simp)

theorem KeepsTableLaws.observeChange (s : State) (c : LineChange) : KeepsTableLaws s (s.observeChange c) := by
  simp only [State.observeChange]
  split
  · exact .refl s
  · split
    · exact .observeStart s
    · split
      · exact .observeStop s
      · exact .observeOther s _

end Sys2Proof.Machine

/-! ### The commands -/

namespace Sys2Proof.Machine

open Sys2Proof

variable {s t : State}

theorem KeepsTableLaws.command {α : Type} {p : Port} {need : Standing} {args : Option α}
    {body : α → State → State × Reply} (hb : ∀ a, args = some a → KeepsTableLaws s (body a s).1) :
    KeepsTableLaws s (s.command p need args body) := by
  have answered (z : State) (r : Reply) : KeepsTableLaws z (z.respond p r) := .of_tables (by simp) (by simp)
  simp only [State.command]
  split
  · split
    · exact answered s _
    · split
      · exact answered s _
      · next a => exact (hb a rfl).trans (answered _ _)
  · exact .refl s

theorem KeepsTableLaws.mirrorDefineBody (s : State) (p : Port) (k : Key) (sp : Sponsor) :
    KeepsTableLaws s (mirrorDefineBody p k sp s).1 := by
  cases hx : s.targetAt k.addr with
  | none =>
    rw [mirrorDefineBody_unknown hx]
    exact .refl s
  | some x =>
    cases hr : x.readSet.has p with
    | false =>
      rw [mirrorDefineBody_barred hx hr]
      exact .refl s
    | true =>
      cases hk : s.findEntry k with
      | some e =>
        obtain ⟨⟨u, hu, -⟩, -⟩ := findEntry_eq_some.1 hk
        rw [mirrorDefineBody_join hx hr hk]
        simp only [State.joinEntry, hu, setSponsors_eq_withSponsors hu]
        exact (KeepsTableLaws.withSponsors hu ⟨p, by simp⟩).settle
      | none =>
        cases he : s.freeEntry with
        | none =>
          rw [mirrorDefineBody_full hx hr hk he]
          exact .refl s
        | some e =>
          rw [mirrorDefineBody_take hx hr hk he]
          refine KeepsTableLaws.settle (.takeEntry (x := x) _ ⟨⟨p, by simp⟩, ?_⟩ (findEntry_eq_none.1 hk) hx ?_)
          · cases x.health == .quarantined <;> simp
          · by_cases hq : x.health = .quarantined <;> simp [hq]

theorem KeepsTableLaws.mirrorDropBody (s : State) (p : Port) (e : EntryId) :
    KeepsTableLaws s (mirrorDropBody p e s).1 := by
  simp only [Machine.mirrorDropBody]
  split
  · exact .refl s
  · split
    · exact .refl s
    · exact (KeepsTableLaws.removeSponsor s e p).settle

/-- A declaration that passes the argument check has a threshold of 1 or more (R76). -/
theorem threshold_of_declareArg {args : DeclareArgs} {d : Declaration} (h : declareArg args = some d) : 1 ≤ d.threshold := by
  simp only [declareArg, Option.bind_eq_some_iff, Option.ite_none_right_eq_some, Option.some.injEq] at h
  obtain ⟨a, -, speed, -, ⟨-, -, hthreshold, -⟩, rfl⟩ := h
  exact hthreshold

/-- A redeclaration writes the declared fields, and starts quarantine where the count has reached the new threshold
(R77, R79). -/
theorem KeepsTableLaws.redeclare {i : TargetId} {x : Target} {d : Declaration} (hx : s.target i = some x)
    (hd : 1 ≤ d.threshold) : KeepsTableLaws s (s.redeclare i x d) := by
  simp only [State.redeclare, updTarget_eq hx]
  split
  · exact .quarantineOnset hx rfl fun ⟨_, hmax, _⟩ => ⟨hd, hmax⟩
  · next h =>
    refine .setTarget hx ⟨rfl, fun ⟨_, hmax, honline, hsuspect, hdue, hidle⟩ => ?_, Iff.rfl⟩
    exact ⟨hd, hmax, honline, fun hs => ⟨(hsuspect hs).1, Nat.not_le.1 fun hle => h ⟨hs, hle⟩⟩, hdue, hidle⟩

theorem KeepsTableLaws.declareBody (s : State) {d : Declaration} (hd : 1 ≤ d.threshold) :
    KeepsTableLaws s (declareBody d s).1 := by
  simp only [Machine.declareBody]
  split
  · next i x hl =>
    obtain ⟨-, hx, -⟩ := lookup_eq_some hl
    split
    · exact .refl s
    · exact (KeepsTableLaws.redeclare hx hd).settle
  · next hl =>
    split
    · exact .refl s
    · next i hi =>
      obtain ⟨hfree, -⟩ := freeTarget_eq_some.1 hi
      refine .replaceTarget (a := d.addr) (by simp [hfree]) (fun y hy => ?_) (fun _ _ => addr_ne_of_lookup_none hl)
        fun ⟨_, _, hbind⟩ e u hu ha => ?_
      · cases hy
        exact ⟨rfl, hd, Nat.zero_le _, fun _ => rfl, by simp [Declaration.target], by simp [Declaration.target],
          fun _ => ⟨rfl, rfl⟩⟩
      · obtain ⟨x, hx, -⟩ := hbind e u hu
        rw [ha, targetAt_eq_none.2 hl] at hx
        cases hx

theorem KeepsTableLaws.removeBody (s : State) (a : Byte) : KeepsTableLaws s (removeBody a s).1 := by
  simp only [Machine.removeBody]
  split
  · exact .refl s
  · next i x hl =>
    obtain ⟨-, hx, ha, -⟩ := lookup_eq_some hl
    split
    · exact .refl s
    · next huse =>
      refine .replaceTarget (a := a) (fun y hy => ?_) (by simp) (by simp) fun _ e u hu hua => huse ?_
      · rw [hx] at hy
        cases hy
        exact ha
      · have hmirrored : s.mirrored x.addr = true :=
          List.any_eq_true.2 ⟨e, List.mem_finRange e, by simp [hu, hua, ha]⟩
        simp [State.targetInUse, hmirrored]

theorem KeepsTableLaws.clearBody (s : State) (a : Byte) : KeepsTableLaws s (clearBody a s).1 := by
  simp only [Machine.clearBody]
  split
  · exact .refl s
  · next i x hl =>
    obtain ⟨-, hx, -⟩ := lookup_eq_some hl
    split
    · exact (KeepsTableLaws.quarantineEnd s i).settle
    · next hs =>
      rw [updTarget_eq hx]
      exact .setTarget hx (keptBy_online (by simp [hs]))
    · exact .refl s

theorem KeepsTableLaws.lockBody (s : State) (p : Port) (a : Byte) (n : Nat) (w : Bool) :
    KeepsTableLaws s (lockBody p a n w s).1 := by
  simp only [Machine.lockBody]
  split
  · exact .refl s
  · next i x _ =>
    split
    · exact .refl s
    · split
      · exact .refl s
      · split
        · exact .refl s
        · split
          · exact (KeepsTableLaws.grant s i p n).settle
          · simp only [State.joinOrReport]
            split
            · exact .updTarget i fun x _ => keptBy_lock x _ _
            · exact .refl s

theorem KeepsTableLaws.renewBody (s : State) (p : Port) (a : Byte) : KeepsTableLaws s (renewBody p a s).1 := by
  simp only [Machine.renewBody]
  split
  · exact .refl s
  · split
    · exact .refl s
    · split
      · exact .grant s _ p _
      · exact .refl s

theorem KeepsTableLaws.unlockBody (s : State) (p : Port) (a : Byte) : KeepsTableLaws s (unlockBody p a s).1 := by
  simp only [Machine.unlockBody]
  split
  · exact .refl s
  · split
    · exact (KeepsTableLaws.release s _ p none).settle
    · split
      · exact .leaveWait s _ p
      · exact .refl s

theorem KeepsTableLaws.forceUnlockBody (s : State) (a : Byte) : KeepsTableLaws s (forceUnlockBody a s).1 := by
  simp only [Machine.forceUnlockBody]
  split
  · exact .refl s
  · split
    · exact .refl s
    · exact (KeepsTableLaws.release s _ _ _).settle

theorem KeepsTableLaws.submitBody (s : State) (p : Port) (d : Descriptor) : KeepsTableLaws s (submitBody p d s).1 := by
  simp only [Machine.submitBody]
  split
  · exact .refl s
  · split
    · exact .refl s
    · exact KeepsTableLaws.settle (.of_tables (by simp) (by simp))

theorem KeepsTableLaws.cancelBody (s : State) (p : Port) (ticket : Half) : KeepsTableLaws s (cancelBody p ticket s).1 := by
  simp only [Machine.cancelBody]
  split
  · exact .refl s
  · split
    · exact KeepsTableLaws.settle (.of_tables (by simp) (by simp))
    · exact .of_tables (by simp) (by simp)
    · exact .refl s

theorem KeepsTableLaws.fetchBody (s : State) (p : Port) (ticket : Half) (keep : Bool) :
    KeepsTableLaws s (fetchBody p ticket keep s).1 := by
  simp only [Machine.fetchBody]
  split
  · exact .refl s
  · split
    · cases keep
      · exact .of_tables (by simp) (by simp)
      · exact .refl s
    · exact .refl s
    · exact .refl s

theorem KeepsTableLaws.readNoticeBody (s : State) (p : Port) : KeepsTableLaws s (readNoticeBody p s).1 := by
  simp only [Machine.readNoticeBody]
  split
  · exact .refl s
  · exact .of_tables (by simp) (by simp)

theorem KeepsTableLaws.attachBody (s : State) (p : Port) : KeepsTableLaws s (attachBody p s).1 := by
  simp only [Machine.attachBody]
  split
  · dsimp only
    split
    · have hopened : KeepsTableLaws (s.endSession p) ((s.endSession p).openSession p) := .of_tables (by simp) (by simp)
      exact ((KeepsTableLaws.endSession s p).trans hopened).settle
    · exact .of_tables (by simp) (by simp)
  · exact .refl s

theorem KeepsTableLaws.ageAll (s : State) : KeepsTableLaws s s.ageAll := by
  obtain ⟨-, -, hentry, htarget⟩ := ageAll_spec s
  exact .of_kept (f := fun _ x => { x with probe := x.probe.map fun m => m.promotedIfDue s })
    (g := fun _ u => { u with pending := u.pending.map fun m => m.promotedIfDue s }) htarget
    (fun e => congrArg MirrorEntry.use (hentry e)) (fun _ x _ => keptBy_mapProbe _ x) fun _ u _ => keptBy_mapPending _ u

theorem KeepsTableLaws.reclassAll (s : State) : KeepsTableLaws s s.reclassAll := by
  obtain ⟨-, hentry, htarget⟩ := reclassAll_spec s
  exact .of_kept
    (f := fun _ x => { x with
      probe := x.probe.map fun m => { m with cls := s.params.maintenanceClass, mark := s.now } })
    (g := fun _ u => { u with
      pending := u.pending.map fun m => { m with cls := s.params.maintenanceClass, mark := s.now } }) htarget
    (fun e => congrArg MirrorEntry.use (hentry e)) (fun _ x _ => keptBy_mapProbe _ x) fun _ u _ => keptBy_mapPending _ u

theorem KeepsTableLaws.setParameterBody (s : State) (i : Byte) (k : Param) (ps : Params) :
    KeepsTableLaws s (setParameterBody i k ps s).1 := by
  have hset : KeepsTableLaws s { s with params := ps } := .of_tables rfl rfl
  simp only [Machine.setParameterBody]
  split
  · exact .refl s
  · cases k with
    | agingLimit => exact hset.trans (.ageAll _)
    | maintenanceClass => exact hset.trans (.reclassAll _)
    | staleMultiple => exact hset.trans (.recheckAllStale _)
    | hangLimit => exact hset.trans (.retimeHang _)
    | busRate | addressRetries | lossLimit | faultRetry | maxLease | admitted => exact hset

/-! ### The events -/

theorem KeepsTableLaws.resetBlocks (s : State) (l : Lines) (sel : Port → Bool) : KeepsTableLaws s (s.resetBlocks l sel) :=
  .of_empty (fun e => by simp [State.entryUse, State.entry, State.resetBlocks, Vector.get])
    fun i => by simp [State.target, State.resetBlocks, Vector.get]

theorem KeepsTableLaws.readLines (s : State) : KeepsTableLaws s s.readLines := by
  simp only [State.readLines]
  split <;> exact .of_tables (by simp) (by simp)

theorem KeepsTableLaws.enterReset (s : State) (h : ResetHold) : KeepsTableLaws s (s.enterReset h) :=
  (KeepsTableLaws.resetBlocks s linesHigh fun _ => false).trans (.of_tables rfl rfl)

theorem KeepsTableLaws.leaveReset (s : State) (straps : BitVec 2) (c : ResetCause) (l : Lines) (sel : PortSet) :
    KeepsTableLaws s (s.leaveReset straps c l sel) :=
  ((KeepsTableLaws.resetBlocks s l sel.has).trans (.readLines _)).trans (.of_tables rfl rfl)

theorem KeepsTableLaws.takeResetPart (s : State) (p : Port) (l : Lines) : KeepsTableLaws s (s.takeResetPart p l) :=
  ((KeepsTableLaws.resetBlocks s l _).trans (.readLines _)).trans (.of_tables rfl rfl)

/-- The poll due timer runs only out of FAILED, so that a poll may fall due at its expiry (R57, R67). -/
theorem KeepsTableLaws.pollTimerExpires {e : EntryId} {u : MirrorUse} {tm : Timer} (hu : s.entryUse e = some u)
    (ht : u.dueTimer = some tm) : KeepsTableLaws s (s.pollTimerExpires e u tm) := by
  have wrote {v : MirrorUse} (hk : v.key = u.key) (hsp : v.sponsors = u.sponsors) (hst : v.state = u.state)
      (hval : v.value = u.value) (htm : v.staleTimer = u.staleTimer) : u.keptBy v :=
    ⟨hk, fun h => law_of_same h (not_failed_of_due h (.inl (by simp [ht]))) hsp hst hval htm, by rw [hst]⟩
  rw [pollTimerExpires_eq hu]
  split
  · exact .setEntry _ hu (wrote rfl rfl rfl rfl rfl)
  · next hp =>
    split
    · exact .setEntry _ hu (wrote rfl rfl rfl rfl rfl)
    · rw [makePollDue_setEntry s e _ (by simpa using hp)]
      exact KeepsTableLaws.settle (.setEntry _ hu (wrote rfl rfl rfl rfl rfl))

/-- The probe timer runs only in quarantine, so that a probe may fall due at its expiry (R83, R89). -/
theorem keptBy_probeDue {x : Target} {tm : Timer} (ht : x.probeTimer = some tm) (probe : Option Maint) :
    x.keptBy { x with probeTimer := none, probe := probe } := by
  refine ⟨rfl, fun ⟨hthreshold, hmax, honline, hsuspect, hdue, hidle⟩ => ?_, Iff.rfl⟩
  refine ⟨hthreshold, hmax, honline, hsuspect, hdue, fun hq => ?_⟩
  obtain ⟨hnone, -⟩ := hidle hq
  rw [ht] at hnone
  cases hnone

theorem KeepsTableLaws.event {z : State} (hz : KeepsTableLaws s z) (h : s.event z = .next t) : KeepsTableLaws s t := by
  rw [← next_inj h]
  split
  · exact .refl s
  · exact hz

/-- What is taken on a condition, and leaves the device as it is otherwise. -/
theorem KeepsTableLaws.ite {c : Prop} [Decidable c] (h : KeepsTableLaws s t) : KeepsTableLaws s (if c then t else s) := by
  split
  · exact h
  · exact .refl s

theorem KeepsTableLaws.next {z : State} (hz : KeepsTableLaws s z) (h : (Host.Outcome.next z : Answer) = .next t) :
    KeepsTableLaws s t := next_inj h ▸ hz

/-- Every host command keeps the laws of the tables. -/
theorem keepsTableLaws_exec_header {c : Instr} {p : Port} (hc : headerPort c = some p) (h : exec c s = .next t) :
    KeepsTableLaws s t := by
  cases c <;> simp only [headerPort, reduceCtorEq] at hc
  case info | status | getParameter | mirrorFind | mirrorRead | targetQuery =>
    exact .next (.command fun _ _ => .refl s) h
  case attach => exact .next (.command fun _ _ => .attachBody s _) h
  case detach | evictPort =>
    refine .next (.command fun q _ => ?_) h
    exact .ite (KeepsTableLaws.endSession s _).settle
  case repeatResponse =>
    refine .next ?_ h
    exact .ite (.of_tables (by simp) (by simp))
  case submit p args =>
    simp only [exec, execSubmit] at h
    split at h
    · exact .next (.command fun d _ => .submitBody s _ d) h
    · cases h
  case cancel => exact .next (.command fun _ _ => .cancelBody s _ _) h
  case fetch => exact .next (.command fun _ _ => .fetchBody s _ _ _) h
  case readNotice => exact .next (.command fun _ _ => .readNoticeBody s _) h
  case setNoticeMask => exact .next (.command fun _ _ => .of_tables (by simp) (by simp)) h
  case lock => exact .next (.command fun _ _ => .lockBody s _ _ _ _) h
  case renew => exact .next (.command fun _ _ => .renewBody s _ _) h
  case unlock => exact .next (.command fun _ _ => .unlockBody s _ _) h
  case mirrorDefine => exact .next (.command fun _ _ => .mirrorDefineBody s _ _ _) h
  case mirrorDrop => exact .next (.command fun _ _ => .mirrorDropBody s _ _) h
  case declareTarget => exact .next (.command fun _ hd => .declareBody s (threshold_of_declareArg hd)) h
  case removeTarget => exact .next (.command fun _ _ => .removeBody s _) h
  case clearQuarantine => exact .next (.command fun _ _ => .clearBody s _) h
  case forceUnlock => exact .next (.command fun _ _ => .forceUnlockBody s _) h
  case setParameter => exact .next (.command fun _ _ => .setParameterBody s _ _ _) h
  case busReset =>
    refine .next (.command fun _ _ => ?_) h
    simp only [busResetBody]
    split
    · exact .of_tables (by simp) (by simp)
    · exact .refl s
  case resetPart => exact .next (.command fun _ _ => .of_tables (by simp) (by simp)) h
  case unknownCommand p code =>
    simp only [exec, execUnknownCommand] at h
    split at h
    · cases h
    · refine .next ?_ h
      exact .ite (.of_tables (by simp) (by simp))
  case checkError =>
    refine .next ?_ h
    exact .ite (.of_tables (by simp) (by simp))

/-- Every frame event, reset, timer expiry and event of the field bus keeps the laws of the tables. -/
theorem keepsTableLaws_exec_event {c : Instr} (hc : headerPort c = none) (h : exec c s = .next t) : KeepsTableLaws s t := by
  cases c <;> simp only [headerPort, reduceCtorEq] at hc
  case frameOpen | statusByteShiftedOut | frameAbandoned | ncsRiseInIdle =>
    refine .event ?_ h
    exact .ite (.of_tables (by simp) (by simp))
  case frameEnd =>
    refine .event ?_ h
    refine .ite ?_
    split
    · exact .takeResetPart s _ _
    · exact .of_tables (by simp) (by simp)
  case resetPartTaken =>
    refine .event ?_ h
    exact .ite (.takeResetPart s _ _)
  case powerOnReset | nrstLow => exact .next (.enterReset s _) h
  case powerOnResetEnd | nrstRelease =>
    refine .next ?_ h
    refine .ite ?_
    split
    · exact .of_tables rfl rfl
    · exact .leaveReset s _ _ _ _
  case classAgingExpiry w => exact .event (.ageOne s w) h
  case lockLeaseExpiry =>
    refine .event ?_ h
    split
    · exact .refl s
    · exact .ite (KeepsTableLaws.release s _ _ _).settle
  case mirrorPollDue =>
    refine .event ?_ h
    split
    · exact .refl s
    · next u hu =>
      split
      · exact .refl s
      · next tm ht =>
        exact .ite (.pollTimerExpires hu ht)
  case staleLimitExpiry e =>
    refine .event ?_ h
    split
    · exact .refl s
    · next u hu =>
      split
      · next hv =>
        simp only [State.goStale, updEntry_eq hu]
        exact (KeepsTableLaws.setEntry (s.entry e).issue hu (keptBy_goStale hv.1)).trans (.of_tables (by simp) (by simp))
      · exact .refl s
  case probeDueExpiry i =>
    refine .event ?_ h
    split
    · exact .refl s
    · next tm ht =>
      obtain ⟨x, hx, htm⟩ := Option.bind_eq_some_iff.1 ht
      rw [updTarget_eq hx]
      exact .ite (KeepsTableLaws.setTarget hx (keptBy_probeDue htm _)).settle
  case stretchTimeout =>
    refine .event ?_ h
    split
    · exact .ite (KeepsTableLaws.deliver (.of_tables (by simp) (by simp)) _ _).settle
    · exact .refl s
  case hangTimerExpiry | nextRecoveryAttempt =>
    refine .event ?_ h
    exact .ite (.hangExpires s)
  case idleConfirmationExpiry =>
    refine .event ?_ h
    exact .ite (KeepsTableLaws.settle (.of_tables (by simp) (by simp)))
  case faultRetryExpiry =>
    refine .event ?_ h
    exact .ite (.of_tables (by simp) (by simp))
  case transferCompletion how =>
    refine .event ?_ h
    split
    · exact .refl s
    · exact .endTransfer s _ how
  case arbitrationLoss =>
    refine .event ?_ h
    split
    · exact .refl s
    · exact .ite (.loseTransfer s _ _ _ _)
  case start =>
    refine .event ?_ h
    split
    · exact .refl s
    · exact .of_tables (by simp) (by simp)
  case lineActivityBeforeStart =>
    refine .event ?_ h
    split
    · exact .refl s
    · split <;> exact .loseTransfer s _ _ _ _
  case recoveryAttemptEnd l =>
    refine .event ?_ h
    exact .ite (.endAttempt s l)
  case foreignStart => exact .event (.observeStart s) h
  case foreignStop => exact .event (.observeStop s) h
  case lineActivity c => exact .event (.observeChange s c) h
  case millisecondBoundary => exact .event (z := { s with now := s.now + 1 }) (.of_tables rfl rfl) h
  case addressAttemptNack =>
    refine .event ?_ h
    split
    · exact .refl s
    · exact .nackAddress s _
  case clockStretchStart =>
    refine .event ?_ h
    split
    · exact .refl s
    · exact .of_tables (by simp) (by simp)
  case clockStretchEnd =>
    refine .event ?_ h
    split
    · exact .ite (.of_tables (by simp) (by simp))
    · exact .refl s

/-- Settles O59: the three laws are kept by every command and event, through what each operation on the tables does to one
record. -/
theorem stepsKeepTheTableLaws : Obligations.StepsKeepTheTableLaws := by
  intro s t h
  have hkeeps : KeepsTableLaws s t := by
    simp only [step] at h
    split at h
    · exact .next (.refl s) h
    · next c rest _ =>
      refine .trans (t := { s with pending := rest }) (.of_tables rfl rfl) ?_
      cases hc : headerPort c with
      | none => exact keepsTableLaws_exec_event hc h
      | some p => exact keepsTableLaws_exec_header hc h
  exact ⟨hkeeps.health, hkeeps.mirror, hkeeps.table⟩

end Sys2Proof.Machine

/-! ## The target table: declaration, redeclaration and removal (O34, O35), and the schedule of the probe (O39) -/

namespace Sys2Proof.Machine

open Sys2Proof

variable {s : State} {p q : Port} {t : TargetId} {x y : Target} {addr : Byte} {d : DeclareArgs}

/-! ### What is held on a target (R78, R80) -/

/-- A request is finished once it is neither QUEUED nor ACTIVE. -/
theorem isDone_eq_false {r : Request} : r.isDone = false ↔ r.state = .queued ∨ r.state = .active := by
  cases h : r.state <;> simp [Request.isDone, h]

theorem slotTo_iff : s.slotTo q addr = true ↔ ∃ n r, s.request n = some r ∧ r.owner = q
    ∧ (r.state = .queued ∨ r.state = .active) ∧ r.desc.target = addr := by
  simp [State.slotTo, Option.any_eq_true, isDone_eq_false, and_assoc]

theorem sponsorsOn_iff : s.sponsorsOn q addr = true ↔
    ∃ e u, s.entryUse e = some u ∧ u.key.addr = addr ∧ u.sponsors.get q ≠ none := by
  simp [State.sponsorsOn, Option.any_eq_true, Option.isSome_iff_ne_none]

theorem mirrored_iff : s.mirrored addr = true ↔ ∃ e u, s.entryUse e = some u ∧ u.key.addr = addr := by
  simp [State.mirrored, Option.any_eq_true]

theorem maintenanceRuns_iff : s.maintenanceRuns addr = true ↔
    (∃ f e i k m, s.engine = .transfer f ∧ f.work = .poll e i k m ∧ k.addr = addr)
      ∨ ∃ f u m, s.engine = .transfer f ∧ f.work = .probe u addr m := by
  cases hg : s.engine with
  | idle => simp [State.maintenanceRuns, hg]
  | recovery b => simp [State.maintenanceRuns, hg]
  | transfer f =>
    cases hw : f.work with
    | request n => simp [State.maintenanceRuns, hg, hw]
    | poll e i k m => simp [State.maintenanceRuns, hg, hw]
    | probe u a m => simp [State.maintenanceRuns, hg, hw]

/-- What keeps a port's access from being taken away (R78). -/
theorem holdsOn_iff (hx : x.addr = addr) : s.holdsOn q x = true ↔
    (∃ n r, s.request n = some r ∧ r.owner = q ∧ (r.state = .queued ∨ r.state = .active) ∧ r.desc.target = addr)
      ∨ (∃ h, x.lock = some h ∧ h.port = q) ∨ x.awaits q = true
      ∨ ∃ e u, s.entryUse e = some u ∧ u.key.addr = addr ∧ u.sponsors.get q ≠ none := by
  subst hx
  simp only [State.holdsOn, Bool.or_eq_true, or_assoc, slotTo_iff, sponsorsOn_iff, Option.any_eq_true, beq_iff_eq]

/-- What keeps a target's entry from being freed (R80). -/
theorem targetInUse_iff (hx : x.addr = addr) : s.targetInUse x = true ↔
    (∃ n r, s.request n = some r ∧ (r.state = .queued ∨ r.state = .active) ∧ r.desc.target = addr)
      ∨ (∃ f e i k m, s.engine = .transfer f ∧ f.work = .poll e i k m ∧ k.addr = addr)
      ∨ (∃ f u m, s.engine = .transfer f ∧ f.work = .probe u addr m)
      ∨ (∃ e u, s.entryUse e = some u ∧ u.key.addr = addr) ∨ x.lock ≠ none ∨ x.waiters ≠ [] := by
  subst hx
  have hslots : (Port.all.any fun q => s.slotTo q x.addr) = true ↔
      ∃ n r, s.request n = some r ∧ (r.state = .queued ∨ r.state = .active) ∧ r.desc.target = x.addr := by
    simp only [List.any_eq_true, Port.mem_all, true_and, slotTo_iff]
    exact ⟨fun ⟨_, n, r, hr, _, hs⟩ => ⟨n, r, hr, hs⟩, fun ⟨n, r, hr, hs⟩ => ⟨r.owner, n, r, hr, rfl, hs⟩⟩
  have hwaiters : (!x.waiters.isEmpty) = true ↔ x.waiters ≠ [] := by simp
  simp only [State.targetInUse, Bool.or_eq_true, hslots, hwaiters, maintenanceRuns_iff, mirrored_iff,
    Option.isSome_iff_ne_none, or_assoc]

/-! ### The fields of a declaration (R76, R178) -/

/-- The declaration that a record's declared fields make, at an address. -/
def Target.declaration (x : Target) (addr : Byte) : Declaration :=
  ⟨addr, x.speed, x.stretchLimit, x.threshold, x.probeInterval, x.readSet, x.writeSet⟩

theorem orDefault_toNat {w : Nat} (b : BitVec w) (n : Nat) : orDefault b.toNat n = if b = 0#w then n else b.toNat := by
  simp [orDefault, BitVec.toNat_eq]

/-- A speed cap code in range stands for the rate that the record takes from it. -/
theorem speedArg_of_declaredAs (h : x.declaredAs d) (hrange : d.speed.toNat ≤ 2) : speedArg d.speed = some x.speed := by
  obtain ⟨hstandard, hfast, hplus, -⟩ := h
  have hcode : d.speed = 0x00#8 ∨ d.speed = 0x01#8 ∨ d.speed = 0x02#8 := by bv_omega
  rcases hcode with hc | hc | hc
  · rw [hstandard hc, hc]; rfl
  · rw [hfast hc, hc]; rfl
  · rw [hplus hc, hc]; rfl

/-- The argument check takes a declaration in range, with the fields of any record that is declared so. -/
theorem declareArg_of_declaredAs (hd : badDeclaration d = false) (hx : x.declaredAs d) :
    declareArg d = some (x.declaration d.addr) := by
  simp only [badDeclaration, Bool.or_eq_false_iff, decide_eq_false_iff_not] at hd
  obtain ⟨haddr, hranges⟩ := hd
  have hspeed : speedArg d.speed = some x.speed := speedArg_of_declaredAs hx (by omega)
  obtain ⟨-, -, -, hstretch, hthreshold, hinterval, hread, hwrite⟩ := hx
  have hstretch' : orDefault d.stretch.toNat Config.defaultStretch = x.stretchLimit := by
    rw [orDefault_toNat, hstretch]; rfl
  have hthreshold' : orDefault d.threshold.toNat Config.defaultThreshold = x.threshold := by
    rw [orDefault_toNat, hthreshold]; rfl
  have hinterval' : orDefault d.probeInterval.toNat Config.defaultProbeInterval = x.probeInterval := by
    rw [orDefault_toNat, hinterval]; rfl
  have hrange : 1 ≤ x.stretchLimit ∧ x.stretchLimit ≤ 100 ∧ 1 ≤ x.threshold ∧ x.threshold ≤ 15
      ∧ 10 ≤ x.probeInterval ∧ x.probeInterval ≤ 10000 := by
    rw [hstretch, hthreshold, hinterval]
    refine ⟨?_, ?_, ?_, ?_, ?_, ?_⟩ <;> split <;> bv_omega
  simp only [declareArg, addressArg_eq, haddr, hspeed, hstretch', hthreshold', hinterval', Option.bind_some, if_pos hrange,
    Target.declaration, hread, hwrite, BitVec.setWidth_eq_extractLsb' (show 4 ≤ 8 by decide)]
  rfl

/-- Every declaration as sent is that of some record. -/
theorem exists_declaredAs (d : DeclareArgs) : ∃ x : Target, x.declaredAs d := by
  refine ⟨⟨d.addr, (speedArg d.speed).getD .khz100, _, _, _, _, _, .online, 0, none, none, none, none, []⟩,
    fun hc => ?_, fun hc => ?_, fun hc => ?_, rfl, rfl, rfl, rfl, rfl⟩ <;> simp only [hc] <;> rfl

section

variable (h : s.takesHeader p = true) (hs : s.supervisor = p) (ha : (s.port p).attached = true)
include h hs ha

/-- DECLARE TARGET with arguments in range, from the supervisor in a session (R76). -/
theorem exec_declareTarget (hd : badDeclaration d = false) (hx : x.declaredAs d) : exec (.declareTarget p d) s
    = .next ((declareBody (x.declaration d.addr) s).1.respond p (declareBody (x.declaration d.addr) s).2) :=
  congrArg Host.Outcome.next (command_taken h (standing_supervisor hs ha) (declareArg_of_declaredAs hd hx))

/-- REMOVE TARGET with an address in range, from the supervisor in a session (R80). -/
theorem exec_removeTarget (hn : noAddress addr = false) :
    exec (.removeTarget p addr) s = .next ((removeBody addr s).1.respond p (removeBody addr s).2) :=
  congrArg Host.Outcome.next (command_taken h (standing_supervisor hs ha) (by simp [addressArg_eq, hn]))

end

/-! ### DECLARE TARGET and REMOVE TARGET -/

/-- A redeclaration is refused when a port that it drops from a set holds something on the target (R78). -/
theorem redeclareInUse_iff : s.redeclareInUse x (y.declaration addr) = true ↔
    ∃ q, ((x.readSet.getLsbD q.index.val = true ∧ y.readSet.getLsbD q.index.val = false)
        ∨ (x.writeSet.getLsbD q.index.val = true ∧ y.writeSet.getLsbD q.index.val = false)) ∧ s.holdsOn q x = true := by
  simp only [State.redeclareInUse, List.any_eq_true, Port.mem_all, true_and, Bool.and_eq_true, Target.drops,
    Target.declaration, PortSet.has, Bool.or_eq_true, Bool.not_eq_eq_eq_not, Bool.not_true]

/-- A redeclaration that is taken writes the record with its new fields, and starts quarantine where the count of a SUSPECT
target has reached the new threshold (R77, R79). -/
theorem redeclare_eq (hx : s.target t = some x) (hy : (y.declaration addr).rewrite x = y) :
    s.redeclare t x (y.declaration addr) = if x.health = .suspect ∧ y.threshold ≤ x.failures
      then (s.setTarget t (some y)).quarantineOnset t else s.setTarget t (some y) := by
  simp only [State.redeclare, updTarget_eq hx, hy]
  rfl

section

variable {dec : Declaration}

theorem declareBody_full (hl : s.lookup dec.addr = none) (hf : s.freeTarget = none) :
    declareBody dec s = (s, ⟨.tableFull, []⟩) := by
  simp only [declareBody, hl, hf]
  rfl

theorem declareBody_take (hl : s.lookup dec.addr = none) (hf : s.freeTarget = some t) :
    declareBody dec s = (s.setTarget t (some dec.target), indexReply t) := by
  simp only [declareBody, hl, hf]

theorem declareBody_inUse (hl : s.lookup dec.addr = some (t, x)) (hu : s.redeclareInUse x dec = true) :
    declareBody dec s = (s, ⟨.inUse, []⟩) := by
  simp only [declareBody, hl, if_pos hu]
  rfl

theorem declareBody_redeclare (hl : s.lookup dec.addr = some (t, x)) (hu : ¬ s.redeclareInUse x dec = true) :
    declareBody dec s = ((s.redeclare t x dec).settle, indexReply t) := by
  simp only [declareBody, hl, if_neg hu]

end

/-- Settles O34, by what the address finds and by what is FREE, or in use. -/
theorem declareAndRemoveTarget : Obligations.DeclareAndRemoveTarget := by
  intro s p h hs ha
  refine ⟨fun d hd hnone => ⟨fun hfull => ?_, ?_⟩, fun addr hn => ⟨fun hnone => ?_, fun t x hl => ?_⟩⟩
  · obtain ⟨x, hx⟩ := exists_declaredAs d
    rw [exec_declareTarget h hs ha hd hx,
      declareBody_full (dec := x.declaration d.addr) (targetAt_eq_none.1 hnone) (freeTarget_eq_none.2 hfull)]
  · intro t x hfree hlow haddr hx hhealth hfailures hdue htimer hprobe hlock hwaiters
    have hnew : (x.declaration d.addr).target = x := by
      cases x
      simp_all [Declaration.target, Target.declaration]
    rw [exec_declareTarget h hs ha hd hx,
      declareBody_take (dec := x.declaration d.addr) (targetAt_eq_none.1 hnone) (freeTarget_eq_some.2 ⟨hfree, hlow⟩), hnew]
    rfl
  · rw [exec_removeTarget h hs ha hn]
    simp only [removeBody, targetAt_eq_none.1 hnone]
    rfl
  · obtain ⟨-, -, haddr, -⟩ := lookup_eq_some hl
    rw [exec_removeTarget h hs ha hn]
    simp only [removeBody, hl, ← targetInUse_iff haddr]
    refine ⟨fun hused => ?_, fun hunused => ?_⟩
    · rw [if_pos hused]
      rfl
    · rw [if_neg hunused]
      rfl

/-- Settles O35, by what the dropped ports hold and by the health that meets the new threshold. -/
theorem redeclarationKeepsHealthAndLock : Obligations.RedeclarationKeepsHealthAndLock := by
  intro s p d t x y h hs ha hd hl hdeclared hy
  obtain ⟨-, hx, haddr, -⟩ := lookup_eq_some hl
  have hwritten : (y.declaration d.addr).rewrite x = y := hy.symm
  rw [exec_declareTarget h hs ha hd hdeclared]
  simp only [← holdsOn_iff haddr]
  refine ⟨fun hheld => ?_, fun hfree => ?_⟩
  · rw [declareBody_inUse (dec := y.declaration d.addr) hl (redeclareInUse_iff.2 hheld)]
  · have hfree : ¬ s.redeclareInUse x (y.declaration d.addr) = true := fun hr => by
      obtain ⟨q, hdropped, hholds⟩ := redeclareInUse_iff.1 hr
      exact hfree q hdropped hholds
    rw [declareBody_redeclare (dec := y.declaration d.addr) hl hfree, redeclare_eq hx hwritten]
    refine ⟨fun hkept => ?_, fun hsuspect hle => ?_⟩
    · rw [if_neg fun hr => hkept.elim (· hr.1) (Nat.not_lt.2 hr.2)]
      rfl
    · rw [if_pos ⟨hsuspect, hle⟩]
      rfl

/-! ### The schedule of the probe (R89) -/

theorem exec_probeDueExpiry {tm : Timer} (hr : s.inReset = false) (hx : s.target t = some x)
    (ht : x.probeTimer = some tm) (hdue : tm.setAt + tm.length ≤ s.now) : exec (.probeDueExpiry t) s
      = .next (s.setTarget t (some { x with
          probeTimer := none, probe := x.probe <|> some (s.newMaint tm.expiry) })).settle := by
  change s.event _ = _
  rw [event_taken hr]
  simp only [hx, Option.bind_some, ht, timer_due hdue, if_true, updTarget_eq hx]

/-- Settles O39. -/
theorem probeSchedule : Obligations.ProbeSchedule := by
  refine ⟨fun s t x tm hr hx ht hdue => ?_, fun s t x hx => ⟨fun hq => ?_, fun hq => ?_⟩⟩
  · rw [exec_probeDueExpiry hr hx ht hdue]
    refine ⟨fun hnone => ?_, fun hsome => ?_⟩
    · rw [hnone]
      rfl
    · obtain ⟨m, hm⟩ := Option.ne_none_iff_exists'.1 hsome
      rw [hm]
      rfl
  · simp only [State.reschedule, hx, Option.any_some, hq, beq_self_eq_true, if_true, State.scheduleProbe, updTarget_eq hx]
    rfl
  · simp [State.reschedule, hx, hq]

end Sys2Proof.Machine

/-! ## The lock commands (O26, O27) -/

namespace Sys2Proof.Machine

open Sys2Proof

variable {s : State} {p : Port} {t : TargetId} {x : Target} {addr : Byte}

/-! ### The headers with arguments in range -/

section

variable (h : s.takesHeader p = true) (ha : (s.port p).attached = true) (hn : noAddress addr = false)
include h ha hn

/-- LOCK with a lease in range, in a session (R94). -/
theorem exec_lock {lease : Half} (hl : lease ≠ 0#16) (flags : Byte) : exec (.lock p addr lease flags) s
    = .next ((lockBody p addr lease.toNat (flags.getLsbD 0) s).1.respond p
        (lockBody p addr lease.toNat (flags.getLsbD 0) s).2) := by
  have hlease : lease.toNat ≠ 0 := fun h0 => hl (BitVec.eq_of_toNat_eq h0)
  have harg : lockArg addr lease flags = some (addr, lease.toNat, flags.getLsbD 0) := by
    simp [lockArg, addressArg_eq, hn, hlease, flagArg]
  exact congrArg Host.Outcome.next (command_taken h (standing_session ha) harg)

theorem exec_renew : exec (.renew p addr) s = .next ((renewBody p addr s).1.respond p (renewBody p addr s).2) :=
  congrArg Host.Outcome.next (command_taken h (standing_session ha) (by simp [addressArg_eq, hn]))

theorem exec_unlock : exec (.unlock p addr) s = .next ((unlockBody p addr s).1.respond p (unlockBody p addr s).2) :=
  congrArg Host.Outcome.next (command_taken h (standing_session ha) (by simp [addressArg_eq, hn]))

theorem exec_forceUnlock (hs : s.supervisor = p) :
    exec (.forceUnlock p addr) s = .next ((forceUnlockBody addr s).1.respond p (forceUnlockBody addr s).2) :=
  congrArg Host.Outcome.next (command_taken h (standing_supervisor hs ha) (by simp [addressArg_eq, hn]))

end

/-! ### The bodies, condition by condition -/

/-- Whether a port holds a target's lock, as the commands test it. -/
theorem any_lock_iff : (x.lock.any fun h => h.port == p) = true ↔ ∃ h, x.lock = some h ∧ h.port = p := by
  simp [Option.any_eq_true]

theorem any_lock_eq_false : (x.lock.any fun h => h.port == p) = false ↔ ∀ h, x.lock = some h → h.port ≠ p := by
  simp [Option.any_eq_false]

/-- Access to a target, as the commands test it. -/
theorem has_access (h : x.readSet.getLsbD p.index.val = true ∨ x.writeSet.getLsbD p.index.val = true) :
    (x.readSet.has p || x.writeSet.has p) = true := Bool.or_eq_true_iff.2 h

theorem grant_eq (hx : s.target t = some x) (q : Port) (n : Nat) :
    s.grant t q n = s.setTarget t (some { x with lock := some ⟨q, ⟨s.now, min n s.params.maxLease⟩⟩ }) := by
  rw [State.grant, updTarget_eq hx]
  rfl

theorem leaveWait_eq (hx : s.target t = some x) (q : Port) :
    s.leaveWait t q = s.setTarget t (some { x with waiters := x.waiters.filter fun w => w.port != q }) := by
  rw [State.leaveWait, updTarget_eq hx]

section

variable (hl : s.lookup addr = none)
include hl

theorem lockBody_unknown (n : Nat) (w : Bool) : lockBody p addr n w s = (s, ⟨.unknownTarget, []⟩) := by
  simp only [lockBody, hl, Reply.plain]

theorem renewBody_unknown : renewBody p addr s = (s, ⟨.unknownTarget, []⟩) := by simp only [renewBody, hl, Reply.plain]

theorem unlockBody_unknown : unlockBody p addr s = (s, ⟨.unknownTarget, []⟩) := by simp only [unlockBody, hl, Reply.plain]

theorem forceUnlockBody_unknown : forceUnlockBody addr s = (s, ⟨.unknownTarget, []⟩) := by
  simp only [forceUnlockBody, hl, Reply.plain]

end

section

variable (hl : s.lookup addr = some (t, x))
include hl

theorem lockBody_barred (h : ¬ (x.readSet.getLsbD p.index.val = true ∨ x.writeSet.getLsbD p.index.val = true)) (n : Nat)
    (w : Bool) : lockBody p addr n w s = (s, ⟨.notPermitted, []⟩) := by
  simp only [lockBody, hl]
  exact if_pos (by simpa [PortSet.has] using h)

section

variable (hacc : x.readSet.getLsbD p.index.val = true ∨ x.writeSet.getLsbD p.index.val = true) (n : Nat) (w : Bool)
include hacc

theorem lockBody_holder (h : ∃ h, x.lock = some h ∧ h.port = p) : lockBody p addr n w s = (s, ⟨.alreadyHeld, []⟩) := by
  simp only [lockBody, hl, has_access hacc, any_lock_iff.2 h]
  rfl

theorem lockBody_waiter (h : ¬ ∃ h, x.lock = some h ∧ h.port = p) (hw : x.awaits p = true) :
    lockBody p addr n w s = (s, ⟨.alreadyWaiting, []⟩) := by
  simp only [lockBody, hl, has_access hacc, Bool.eq_false_iff.2 (mt any_lock_iff.1 h), hw]
  rfl

theorem lockBody_free (hfree : x.lock = none) (hw : x.awaits p = false) : lockBody p addr n w s
    = ((s.setTarget t (some { x with lock := some ⟨p, ⟨s.now, min n s.params.maxLease⟩⟩ })).settle,
        grantedReply (min n s.params.maxLease)) := by
  obtain ⟨-, hx, -⟩ := lookup_eq_some hl
  simp only [lockBody, hl, has_access hacc, hfree, Option.any_none, hw, grant_eq hx]
  rfl

theorem lockBody_elsewhere {h : Hold} (hlock : x.lock = some h) (hne : h.port ≠ p) (hw : x.awaits p = false) :
    lockBody p addr n w s = if w then
        (s.setTarget t (some { x with waiters := x.waiters ++ [⟨p, n⟩] }), ⟨.waiting, [countByte (x.waiters.length + 1)]⟩)
      else (s, ⟨.held h.port, []⟩) := by
  obtain ⟨-, hx, -⟩ := lookup_eq_some hl
  simp only [lockBody, hl, has_access hacc, hlock, Option.any_some, beq_false_of_ne hne, hw, State.joinOrReport,
    updTarget_eq hx]
  rfl

end

end

/-- Settles O26, condition by condition of Table 5-2. -/
theorem lockByItsConditionsInOrder : Obligations.LockByItsConditionsInOrder := by
  intro s p addr lease flags ht ha hn hlease
  refine ⟨fun hnone => ?_, fun t x hl => ?_⟩
  · rw [exec_lock ht ha hn hlease, lockBody_unknown (targetAt_eq_none.1 hnone)]
  intro access holds granted
  refine ⟨fun hno => ?_, fun hacc hheld => ?_, fun hacc hheld hwaits => ?_, fun hacc hwaits =>
    ⟨fun hfree => ?_, fun h hlock hne => ⟨fun hjoin => ?_, fun hask => ?_⟩⟩⟩
  all_goals rw [exec_lock ht ha hn hlease]
  · rw [lockBody_barred hl hno]
  · rw [lockBody_holder hl hacc _ _ hheld]
  · rw [lockBody_waiter hl hacc _ _ hheld hwaits]
  · rw [lockBody_free hl hacc _ _ hfree hwaits]
    rfl
  · rw [lockBody_elsewhere hl hacc _ _ hlock hne hwaits, if_pos hjoin]
    rfl
  · rw [lockBody_elsewhere hl hacc _ _ hlock hne hwaits, if_neg (Bool.eq_false_iff.1 hask)]

/-! ### RENEW and UNLOCK by the standing of the port -/

section

variable (hl : s.lookup addr = some (t, x))
include hl

theorem renewBody_holder {h : Hold} (hlock : x.lock = some h) (hp : h.port = p) : renewBody p addr s
    = (s.setTarget t (some { x with lock := some ⟨p, ⟨s.now, min h.lease.length s.params.maxLease⟩⟩ }),
        grantedReply (min h.lease.length s.params.maxLease)) := by
  obtain ⟨-, hx, -⟩ := lookup_eq_some hl
  simp only [renewBody, hl, hlock, if_pos hp, grant_eq hx]
  rfl

theorem renewBody_other (h : ∀ h, x.lock = some h → h.port ≠ p) : renewBody p addr s = (s, ⟨.notHolder, []⟩) := by
  simp only [renewBody, hl]
  split
  · rfl
  · next k hk => exact if_neg (h k hk)

theorem unlockBody_holder {h : Hold} (hlock : x.lock = some h) (hp : h.port = p) :
    unlockBody p addr s = ((s.release t p none).settle, ⟨.done, []⟩) := by
  simp only [unlockBody, hl]
  exact if_pos (any_lock_iff.2 ⟨h, hlock, hp⟩)

theorem unlockBody_waiter (h : ∀ h, x.lock = some h → h.port ≠ p) (hw : x.awaits p = true) : unlockBody p addr s
    = (s.setTarget t (some { x with waiters := x.waiters.filter fun w => w.port != p }), ⟨.done, []⟩) := by
  obtain ⟨-, hx, -⟩ := lookup_eq_some hl
  simp only [unlockBody, hl, any_lock_eq_false.2 h, hw, leaveWait_eq hx]
  rfl

theorem unlockBody_stranger (h : ∀ h, x.lock = some h → h.port ≠ p) (hw : x.awaits p = false) :
    unlockBody p addr s = (s, ⟨.notHolder, []⟩) := by
  simp only [unlockBody, hl, any_lock_eq_false.2 h, hw]
  rfl

theorem forceUnlockBody_free (hlock : x.lock = none) : forceUnlockBody addr s = (s, ⟨.done, [0xFF#8]⟩) := by
  simp only [forceUnlockBody, hl, hlock]
  rfl

theorem forceUnlockBody_held {h : Hold} (hlock : x.lock = some h) : forceUnlockBody addr s
    = ((s.release t h.port (some .forced)).settle, ⟨.done, [portNumber h.port]⟩) := by
  simp only [forceUnlockBody, hl, hlock]
  rfl

end

/-- Settles O27, by the standing of the port. -/
theorem renewAndUnlockByStanding : Obligations.RenewAndUnlockByStanding := by
  intro s p addr ht ha hn
  refine ⟨fun hnone => ?_, fun t x hl => ⟨fun h hlock hp => ?_, fun hother => ⟨?_, fun hw => ?_, fun hw => ?_⟩,
    fun hs hfree => ?_⟩⟩
  · have hnone := targetAt_eq_none.1 hnone
    refine ⟨?_, ?_, fun hs => ?_⟩
    · rw [exec_renew ht ha hn, renewBody_unknown hnone]
    · rw [exec_unlock ht ha hn, unlockBody_unknown hnone]
    · rw [exec_forceUnlock ht ha hn hs, forceUnlockBody_unknown hnone]
  · rw [exec_renew ht ha hn, renewBody_holder hl hlock hp]
    rfl
  · rw [exec_renew ht ha hn, renewBody_other hl hother]
  · rw [exec_unlock ht ha hn, unlockBody_waiter hl hother hw]
  · rw [exec_unlock ht ha hn, unlockBody_stranger hl hother hw]
  · rw [exec_forceUnlock ht ha hn hs, forceUnlockBody_free hl hfree]

end Sys2Proof.Machine

/-! ## The release of a lock (O28)

The completions and the notices of a release read no target record, so that the lock can be passed on before them or after
them alike. -/

namespace Sys2Proof.Machine

open Sys2Proof

variable {s z : State} {p : Port} {t : TargetId} {x : Target} {addr : Byte}

/-! ### Steps 1 to 4 (R101, R102, R104) -/

theorem setTarget_eq_beside (s : State) (t : TargetId) (v : Option Target) :
    s.setTarget t v = s.beside s.entries (s.targets.set t.val v t.isLt) s.monitor s.engine := rfl

theorem completeSlot_setTarget (s : State) (t : TargetId) (v : Option Target) (n : SlotId) (r : Result) :
    (s.setTarget t v).completeSlot n r = (s.completeSlot n r).setTarget t v := by
  rw [setTarget_eq_beside, completeSlot_beside, setTarget_eq_beside]
  simp

theorem offer_setTarget (s : State) (t : TargetId) (v : Option Target) (n : Notice) (p : Port) :
    (s.setTarget t v).offer n p = (s.offer n p).setTarget t v := by
  rw [setTarget_eq_beside, offer_beside, setTarget_eq_beside]
  simp

theorem foldl_completeSlot_setTarget (t : TargetId) (v : Option Target) (r : Result) (l : List SlotId) (s : State) :
    l.foldl (fun z n => z.completeSlot n r) (s.setTarget t v)
      = (l.foldl (fun z n => z.completeSlot n r) s).setTarget t v := by
  induction l generalizing s with
  | nil => rfl
  | cons n l ih => rw [List.foldl_cons, List.foldl_cons, completeSlot_setTarget, ih]

/-- The slots that a release of a port's lock completes: QUEUED, UNDER LOCK and to the target, oldest first (R101). -/
def State.lostWith (s : State) (p : Port) (addr : Byte) : List SlotId :=
  (s.list p).filter fun n => (s.request n).any fun r => r.state == .queued && r.desc.underLock && r.desc.target == addr

/-- The completions of a release and what it tells the former holder (steps 2 and 3 of R101). -/
def State.lockLost (s : State) (p : Port) (addr : Byte) (cause : Option LockEnd) : State :=
  let lost := (s.lostWith p addr).foldl (fun z n => z.completeSlot n ⟨.lockLost, 0, []⟩) s
  match cause with
  | none => lost
  | some c => lost.offer (.lockEnded addr c) p

theorem lockLost_setTarget (s : State) (t : TargetId) (v : Option Target) (p : Port) (addr : Byte) (cause : Option LockEnd) :
    (s.setTarget t v).lockLost p addr cause = (s.lockLost p addr cause).setTarget t v := by
  have hlost : (s.setTarget t v).lostWith p addr = s.lostWith p addr := rfl
  simp only [State.lockLost, hlost, foldl_completeSlot_setTarget]
  cases cause with
  | none => rfl
  | some c => exact offer_setTarget _ t v _ p

theorem lockLost_frame (s : State) (p : Port) (addr : Byte) (cause : Option LockEnd) :
    (s.lockLost p addr cause).params = s.params ∧ (s.lockLost p addr cause).now = s.now
      ∧ (s.lockLost p addr cause).targets = s.targets := by
  have lost : ∀ l : List SlotId, (l.foldl (fun z n => z.completeSlot n ⟨.lockLost, 0, []⟩) s).params = s.params
      ∧ (l.foldl (fun z n => z.completeSlot n ⟨.lockLost, 0, []⟩) s).now = s.now
      ∧ (l.foldl (fun z n => z.completeSlot n ⟨.lockLost, 0, []⟩) s).targets = s.targets := fun l =>
    ⟨foldl_keep State.params (by simp) l s, foldl_keep State.now (by simp) l s, foldl_keep State.targets (by simp) l s⟩
  cases cause <;> simp [State.lockLost, lost]

/-- Step 2 of a release, in the model's words and in those of R101. -/
theorem completeQueued_lockLost (s : State) (p : Port) (addr : Byte) :
    s.completeQueued p (fun r => r.desc.target == addr && r.desc.underLock) .lockLost = s.lockLost p addr none := by
  have hlist : s.queuedSuch p (fun r => r.desc.target == addr && r.desc.underLock) = s.lostWith p addr := by
    simp only [State.queuedSuch, State.lostWith, Bool.and_assoc]
    exact List.filter_congr fun n _ => by simp only [Bool.and_comm]
  simp only [State.completeQueued, hlist]
  rfl

/-- The target record after a release: the oldest waiter holds the lock, its lease clamped (R101, R104). -/
def Target.passedOn (s : State) (x : Target) : Target :=
  { x with
    lock := x.waiters.head?.map fun w => ⟨w.port, ⟨s.now, min w.lease s.params.maxLease⟩⟩
    waiters := x.waiters.tail }

/-- The notice of step 4: LOCK GRANTED to the oldest of those who waited, with the lease granted in the state `s` (R101,
R104). -/
def State.tellGranted (z s : State) (x : Target) : State :=
  match x.waiters with
  | [] => z
  | w :: _ => z.offer (.lockGranted x.addr (min w.lease s.params.maxLease)) w.port

/-- Step 4 of a release, on the record that step 1 leaves (R101, R104). -/
theorem grantNext_opened (hp : s.params = z.params) (hn : s.now = z.now) :
    (z.setTarget t (some { x with lock := none })).grantNext t = (z.setTarget t (some (x.passedOn s))).tellGranted s x := by
  simp only [State.grantNext, target_setTarget, if_true, State.tellGranted, Target.passedOn]
  cases hw : x.waiters with
  | nil => simp
  | cons w ws =>
    simp only [updTarget_setTarget, State.grant, hp, hn]
    rfl

/-- A release is the completions, then the record passed on, then the notice to the new holder (R101). -/
theorem release_eq (hx : s.target t = some x) (p : Port) (cause : Option LockEnd) :
    s.release t p cause = ((s.lockLost p x.addr cause).setTarget t (some (x.passedOn s))).tellGranted s x := by
  obtain ⟨hparams, hnow, -⟩ := lockLost_frame s p x.addr cause
  rw [← grantNext_opened hparams.symm hnow.symm, ← lockLost_setTarget]
  simp only [State.release, hx, updTarget_eq hx, completeQueued_lockLost]
  cases cause <;> rfl

theorem tellGranted_frame (z s : State) (x : Target) :
    (z.tellGranted s x).slots = z.slots ∧ (z.tellGranted s x).targets = z.targets := by
  simp only [State.tellGranted]
  split <;> simp

/-! ### The release as a whole -/

/-- What a selection can do to a target: start its pending probe (R29, R89). -/
theorem target_select (s : State) (t : TargetId) : ∃ probe : Target → Option Maint,
    s.select.target t = (s.target t).map fun x => { x with probe := probe x } := by
  have same {z : State} (h : z.targets = s.targets) : ∃ probe : Target → Option Maint,
      z.target t = (s.target t).map fun x => { x with probe := probe x } :=
    ⟨Target.probe, by rw [target_of_targets h]; simp⟩
  simp only [State.select]
  split
  · split
    · exact same rfl
    · next c x _ =>
      split
      · exact same rfl
      · next w _ =>
        cases w with
        | request n =>
          simp only [State.startWork]
          split <;> exact same (by simp)
        | poll e i k m => exact same (by simp [State.startWork])
        | probe u a m =>
          have hstart : ({ s with pointers := s.pointers.set c x }.startWork (.probe u a m)).target t
              = (s.updTarget u fun x => { x with probe := none }).target t := rfl
          rw [hstart, target_updTarget]
          split
          · next h => exact ⟨fun _ => none, by rw [h]⟩
          · exact same rfl
  · exact same rfl

/-- The re-evaluation keeps the lock record of every target (R29, R36). -/
theorem target_settle {y : Target} (hy : s.target t = some y) :
    ∃ y', s.settle.target t = some y' ∧ y'.lock = y.lock ∧ y'.waiters = y.waiters := by
  obtain ⟨probe, h⟩ := target_select s.notLockedAll t
  rw [target_notLockedAll, hy, Option.map_some] at h
  exact ⟨_, h, rfl, rfl⟩

theorem target_release (hx : s.target t = some x) (p : Port) (cause : Option LockEnd) (u : TargetId) :
    (s.release t p cause).target u = if u = t then some (x.passedOn s) else s.target u := by
  obtain ⟨-, -, htargets⟩ := lockLost_frame s p x.addr cause
  rw [release_eq hx, target_of_targets (tellGranted_frame _ _ _).2, target_setTarget, target_of_targets htargets]

theorem request_release (hx : s.target t = some x) (p : Port) (cause : Option LockEnd) (n : SlotId) :
    (s.release t p cause).request n = if n ∈ s.lostWith p x.addr
      then (s.request n).bind fun r => r.completed ⟨.lockLost, 0, []⟩ else s.request n := by
  have hlost : (s.lockLost p x.addr cause).request n = if n ∈ s.lostWith p x.addr
      then (s.request n).bind fun r => r.completed ⟨.lockLost, 0, []⟩ else s.request n := by
    cases cause with
    | none => exact request_foldl_completeSlot s _ _ n
    | some c =>
      refine (congrFun (request_of_slots ?_) n).trans (request_foldl_completeSlot s _ _ n)
      simp [State.lockLost]
  rw [release_eq hx, ← hlost, request_of_slots (tellGranted_frame _ _ _).1, request_setTarget]

/-- The slots that a release completes are QUEUED (R101). -/
theorem mem_lostWith {n : SlotId} : n ∈ s.lostWith p addr ↔ n ∈ s.list p ∧ ∃ r, s.request n = some r ∧ r.state = .queued
    ∧ r.desc.underLock = true ∧ r.desc.target = addr := by
  simp [State.lostWith, Option.any_eq_true, and_assoc]

/-- What a release and the re-evaluation leave: the lock passed on, every other lock record and every slot that was not QUEUED
as they were, and the former holder's QUEUED UNDER LOCK slots to the target completed LOCK LOST (R98 to R105). -/
theorem release_settle_passes (hx : s.target t = some x) (p : Port) (cause : Option LockEnd) :
    let z := (s.release t p cause).settle
    (∃ y, z.target t = some y ∧ y.waiters = x.waiters.tail
        ∧ y.lock = x.waiters.head?.map fun w => ⟨w.port, ⟨s.now, min w.lease s.params.maxLease⟩⟩)
      ∧ (∀ u y, u ≠ t → s.target u = some y → ∃ y', z.target u = some y' ∧ y'.lock = y.lock ∧ y'.waiters = y.waiters)
      ∧ (∀ n r, s.request n = some r → r.state ≠ .queued → z.request n = some r)
      ∧ ∀ n r, n ∈ s.list p → s.request n = some r → r.state = .queued → r.desc.underLock = true →
          r.desc.target = x.addr → r.orphan = false →
            z.request n = if r.desc.autoRelease then none
              else some { r with state := .done ⟨.lockLost, 0, []⟩, abortPending := false } := by
  intro z
  refine ⟨?_, fun u y hu hy => ?_, fun n r hr hq => ?_, fun n r hn hr hq hunder htarget horphan => ?_⟩
  · have hpassed : (s.release t p cause).target t = some (x.passedOn s) := by rw [target_release hx, if_pos rfl]
    obtain ⟨y, hy, hlock, hwaiters⟩ := target_settle hpassed
    exact ⟨y, hy, hwaiters, hlock⟩
  · exact target_settle (by rw [target_release hx, if_neg hu, hy])
  · have hkept : (s.release t p cause).request n = some r := by
      rw [request_release hx, if_neg, hr]
      intro hmem
      obtain ⟨-, q, hq', hqueued, -⟩ := mem_lostWith.1 hmem
      rw [hr] at hq'
      cases hq'
      exact hq hqueued
    rw [request_settle_of_not_queued _ (by simpa [hkept] using hq), hkept]
  · have hdone : (s.release t p cause).request n = r.completed ⟨.lockLost, 0, []⟩ := by
      rw [request_release hx, if_pos (mem_lostWith.2 ⟨hn, r, hr, hq, hunder, htarget⟩), hr, Option.bind_some]
    rw [request_settle_of_not_queued _ fun q hq => ?_, hdone]
    · simp [Request.completed, horphan]
    · exact Request.completed_not_queued (o := some r) (hdone.symm.trans hq)

/-- LOCK LEASE EXPIRY of a lock whose lease is over (R99). -/
theorem exec_lockLeaseExpiry {h : Hold} (hr : s.inReset = false) (hx : s.target t = some x) (hlock : x.lock = some h)
    (hdue : h.lease.setAt + h.lease.length ≤ s.now) :
    exec (.lockLeaseExpiry t) s = .next (s.release t h.port (some .expired)).settle := by
  change s.event _ = _
  rw [event_taken hr]
  simp only [hx, Option.bind_some, hlock, timer_due hdue, if_true]

/-- Settles O28, by the equation of a release and what the re-evaluation leaves of it. -/
theorem releasePassesTheLock : Obligations.ReleasePassesTheLock := by
  intro s t x h p addr hl hlock released unlocked told
  obtain ⟨-, hx, rfl, -⟩ := lookup_eq_some hl
  have hreleased (cause : Option LockEnd) : released (s.release t h.port cause).settle :=
    release_settle_passes hx h.port cause
  have htold (cause : Option LockEnd) : told cause
      = (s.lockLost h.port x.addr cause).setTarget t (some { x with lock := none, waiters := [] }) :=
    lockLost_setTarget s t _ h.port x.addr cause
  refine ⟨fun ht ha hn hp => ⟨?_, hp ▸ hreleased none⟩,
    fun hr hdue => ⟨exec_lockLeaseExpiry hr hx hlock hdue, hreleased _⟩, fun ht ha hn hs => ⟨?_, hreleased _⟩,
    fun hnobody cause => ?_, fun w ws hwaiters cause => ?_⟩
  · rw [exec_unlock ht ha hn, unlockBody_holder hl hlock hp]
  · rw [exec_forceUnlock ht ha hn hs, forceUnlockBody_held hl hlock]
  · rw [release_eq hx, htold]
    simp only [State.tellGranted, Target.passedOn, hnobody]
    rfl
  · intro granted
    rw [release_eq hx, htold, setTarget_setTarget]
    simp only [State.tellGranted, Target.passedOn, hwaiters]
    rfl

end Sys2Proof.Machine

/-! ## What keeps what the ports hold

What a DETACHED port holds, part by part, and the changes of state that give it nothing more (R93, R160). -/

namespace Sys2Proof.Machine

open Sys2Proof

variable {s t z : State} {p q : Port}

/-- A port's slots are ACTIVE orphans, as those of a DETACHED port are (R22). -/
def State.ownsOrphansOnly (s : State) (p : Port) : Prop :=
  ∀ n r, s.request n = some r → r.owner = p → r.state = .active ∧ r.orphan = true

/-- A port neither holds a target's lock nor waits for it (R93). -/
def Target.lacks (x : Target) (p : Port) : Prop := (∀ h, x.lock = some h → h.port ≠ p) ∧ x.awaits p = false

/-- A port neither holds a lock nor waits for one (R106). -/
def State.locksNothing (s : State) (p : Port) : Prop := ∀ i x, s.target i = some x → x.lacks p

/-- A port sponsors no entry (R72). -/
def State.sponsorsNothing (s : State) (p : Port) : Prop := ∀ e u, s.entryUse e = some u → (u.sponsors.get p).isNone = true

theorem holdsNothing_iff : s.holdsNothing p ↔
    s.ownsOrphansOnly p ∧ s.locksNothing p ∧ s.sponsorsNothing p ∧ s.noticePort p = NoticePort.fresh := Iff.rfl

/-- One state keeps from another which ports are ATTACHED and the law of the locks, and a DETACHED port holds nothing in it that
it did not hold. -/
structure KeepsHoldings (s t : State) : Prop where
  attached : ∀ q, (t.port q).attached = (s.port q).attached
  lockLaw : s.lockLaw → t.lockLaw
  slots : ∀ q, (s.port q).attached = false → s.ownsOrphansOnly q → t.ownsOrphansOnly q
  locks : ∀ q, (s.port q).attached = false → s.locksNothing q → t.locksNothing q
  sponsors : ∀ q, (s.port q).attached = false → s.sponsorsNothing q → t.sponsorsNothing q
  notices : ∀ q, (s.port q).attached = false → t.noticePort q = s.noticePort q

theorem KeepsHoldings.trans (h : KeepsHoldings s t) (k : KeepsHoldings t z) : KeepsHoldings s z where
  attached q := (k.attached q).trans (h.attached q)
  lockLaw := k.lockLaw ∘ h.lockLaw
  slots q hq := k.slots q ((h.attached q).trans hq) ∘ h.slots q hq
  locks q hq := k.locks q ((h.attached q).trans hq) ∘ h.locks q hq
  sponsors q hq := k.sponsors q ((h.attached q).trans hq) ∘ h.sponsors q hq
  notices q hq := (k.notices q ((h.attached q).trans hq)).trans (h.notices q hq)

/-! ### One block -/

theorem ownsOrphansOnly_of_slots (h : t.slots = s.slots) : t.ownsOrphansOnly q ↔ s.ownsOrphansOnly q := by
  rw [State.ownsOrphansOnly, request_of_slots h, State.ownsOrphansOnly]

theorem locksNothing_of_targets (h : t.targets = s.targets) : t.locksNothing q ↔ s.locksNothing q := by
  rw [State.locksNothing, target_of_targets h, State.locksNothing]

theorem lockLaw_of_targets (h : t.targets = s.targets) : t.lockLaw ↔ s.lockLaw := by
  rw [State.lockLaw, target_of_targets h, State.lockLaw]

theorem sponsorsNothing_of_entries (h : t.entries = s.entries) : t.sponsorsNothing q ↔ s.sponsorsNothing q := by
  rw [State.sponsorsNothing, entryUse_of_entries h, State.sponsorsNothing]

/-- What leaves the records of holdings keeps the holdings. -/
theorem KeepsHoldings.of_fields (h : t.ports = s.ports ∧ t.slots = s.slots ∧ t.targets = s.targets ∧ t.entries = s.entries
    ∧ t.notices = s.notices) : KeepsHoldings s t := by
  obtain ⟨hports, hslots, htargets, hentries, hnotices⟩ := h
  exact {
    attached := fun q => by rw [port_of_ports hports]
    lockLaw := (lockLaw_of_targets htargets).2
    slots := fun _ _ => (ownsOrphansOnly_of_slots hslots).2
    locks := fun _ _ => (locksNothing_of_targets htargets).2
    sponsors := fun _ _ => (sponsorsNothing_of_entries hentries).2
    notices := fun q _ => by rw [noticePort_of_notices hnotices] }

theorem KeepsHoldings.refl (s : State) : KeepsHoldings s s := .of_fields ⟨rfl, rfl, rfl, rfl, rfl⟩

theorem KeepsHoldings.foldl {β : Type} {f : State → β → State} {l : List β} (hf : ∀ a b, KeepsHoldings a (f a b)) :
    KeepsHoldings s (l.foldl f s) :=
  List.foldlRecOn (motive := KeepsHoldings s) _ _ (.refl s) fun a ha b _ => ha.trans (hf a b)

/-- What is taken on a condition, and leaves the device as it is otherwise. -/
theorem KeepsHoldings.ite {c : Prop} [Decidable c] (h : KeepsHoldings s t) : KeepsHoldings s (if c then t else s) := by
  split
  · exact h
  · exact .refl s

theorem KeepsHoldings.setEngine {g : Engine} (h : KeepsHoldings s t) : KeepsHoldings s (t.setEngine g) :=
  h.trans (.of_fields (by simp))

theorem KeepsHoldings.setMonitor {m : Monitor} (h : KeepsHoldings s t) : KeepsHoldings s (t.setMonitor m) :=
  h.trans (.of_fields (by simp))

/-- A change of slots alone. -/
theorem KeepsHoldings.of_slots
    (hf : t.ports = s.ports ∧ t.targets = s.targets ∧ t.entries = s.entries ∧ t.notices = s.notices)
    (h : ∀ q, (s.port q).attached = false → s.ownsOrphansOnly q → t.ownsOrphansOnly q) : KeepsHoldings s t := by
  obtain ⟨hports, htargets, hentries, hnotices⟩ := hf
  exact {
    attached := fun q => by rw [port_of_ports hports]
    lockLaw := (lockLaw_of_targets htargets).2
    slots := h
    locks := fun _ _ => (locksNothing_of_targets htargets).2
    sponsors := fun _ _ => (sponsorsNothing_of_entries hentries).2
    notices := fun q _ => by rw [noticePort_of_notices hnotices] }

/-- A change of entries alone. -/
theorem KeepsHoldings.of_entries
    (hf : t.ports = s.ports ∧ t.slots = s.slots ∧ t.targets = s.targets ∧ t.notices = s.notices)
    (h : ∀ q, (s.port q).attached = false → s.sponsorsNothing q → t.sponsorsNothing q) : KeepsHoldings s t := by
  obtain ⟨hports, hslots, htargets, hnotices⟩ := hf
  exact {
    attached := fun q => by rw [port_of_ports hports]
    lockLaw := (lockLaw_of_targets htargets).2
    slots := fun _ _ => (ownsOrphansOnly_of_slots hslots).2
    locks := fun _ _ => (locksNothing_of_targets htargets).2
    sponsors := h
    notices := fun q _ => by rw [noticePort_of_notices hnotices] }

/-- A record of the target table written after other changes, by what stood in the table before them. -/
theorem KeepsHoldings.setTarget {i : TargetId} {v : Option Target} (h : KeepsHoldings s z)
    (hlaw : s.lockLaw → ∀ y, v = some y → y.lockLaw)
    (hlacks : ∀ q, (s.port q).attached = false → s.locksNothing q → ∀ y, v = some y → y.lacks q) :
    KeepsHoldings s (z.setTarget i v) := by
  have written {j x} (hx : (z.setTarget i v).target j = some x) : v = some x ∨ z.target j = some x := by
    rw [target_setTarget] at hx
    split at hx
    · exact .inl hx
    · exact .inr hx
  exact {
    attached := fun q => (congrArg HostPort.attached (congrFun (port_of_ports (by simp)) q)).trans (h.attached q)
    lockLaw := fun hl j x hx => (written hx).elim (hlaw hl x) (h.lockLaw hl j x)
    slots := fun q hq ho => (ownsOrphansOnly_of_slots (by simp)).2 (h.slots q hq ho)
    locks := fun q hq hn j x hx => (written hx).elim (hlacks q hq hn x) (h.locks q hq hn j x)
    sponsors := fun q hq hn => (sponsorsNothing_of_entries (by simp)).2 (h.sponsors q hq hn)
    notices := fun q hq => (congrFun (noticePort_of_notices (by simp)) q).trans (h.notices q hq) }

/-- A record of the target table that keeps its lock record. -/
theorem KeepsHoldings.updTarget {i : TargetId} {f : Target → Target} (h : KeepsHoldings s t)
    (hf : ∀ x, (f x).lock = x.lock ∧ (f x).waiters = x.waiters) : KeepsHoldings s (t.updTarget i f) := by
  have hlaw (x : Target) : (f x).lockLaw ↔ x.lockLaw := by
    obtain ⟨hl, hw⟩ := hf x
    simp only [Target.lockLaw, Target.awaits, hl, hw]
  have hlacks (x : Target) (q : Port) : (f x).lacks q ↔ x.lacks q := by
    obtain ⟨hl, hw⟩ := hf x
    simp only [Target.lacks, Target.awaits, hl, hw]
  refine h.trans (KeepsHoldings.setTarget (.refl t) (fun hlaws y hy => ?_) fun q _ hnothing y hy => ?_)
  all_goals obtain ⟨x, hx, rfl⟩ := Option.map_eq_some_iff.1 hy
  · exact (hlaw x).2 (hlaws i x hx)
  · exact (hlacks x q).2 (hnothing i x hx)

/-- A request that keeps its owner, and stays an ACTIVE orphan where it was one. -/
theorem KeepsHoldings.updRequest {n : SlotId} {f : Request → Request} (h : KeepsHoldings s t)
    (hf : ∀ r, t.request n = some r → (f r).owner = r.owner ∧
      (r.state = .active → r.orphan = true → (f r).state = .active ∧ (f r).orphan = true)) :
    KeepsHoldings s (t.updRequest n f) := by
  refine h.trans (.of_slots (by simp) fun q _ ho m r hr hown => ?_)
  rw [request_updRequest] at hr
  split at hr
  · obtain ⟨r', hr', rfl⟩ := Option.map_eq_some_iff.1 hr
    obtain ⟨howner, hkeep⟩ := hf r' hr'
    obtain ⟨hactive, horphan⟩ := ho n r' hr' (howner ▸ hown)
    exact hkeep hactive horphan
  · exact ho m r hr hown

/-- An entry that keeps its sponsors. -/
theorem KeepsHoldings.updEntry {e : EntryId} {f : MirrorUse → MirrorUse} (h : KeepsHoldings s t)
    (hf : ∀ u, (f u).sponsors = u.sponsors) : KeepsHoldings s (t.updEntry e f) := by
  refine h.trans (.of_entries (by simp) fun q _ hn d u hu => ?_)
  rw [entryUse_updEntry] at hu
  split at hu
  · obtain ⟨v, hv, rfl⟩ := Option.map_eq_some_iff.1 hu
    rw [hf]
    exact hn e v hv
  · exact hn d u hu

/-- An entry written anew with no DETACHED port as a new sponsor, or freed. -/
theorem KeepsHoldings.setEntry (s : State) (e : EntryId) {v : MirrorEntry}
    (hv : ∀ q, (s.port q).attached = false → s.sponsorsNothing q →
      ∀ u, v.use = some u → (u.sponsors.get q).isNone = true) :
    KeepsHoldings s (s.setEntry e v) := by
  refine .of_entries (by simp) fun q hq hn d u hu => ?_
  rw [entryUse_setEntry] at hu
  split at hu
  · exact hv q hq hn u hu
  · exact hn d u hu

/-- A port that stays ATTACHED or DETACHED. -/
theorem KeepsHoldings.updPort {p : Port} {f : HostPort → HostPort} (h : KeepsHoldings s t)
    (hf : ∀ k, (f k).attached = k.attached) : KeepsHoldings s (t.updPort p f) := by
  refine h.trans {
    attached := fun q => ?_
    lockLaw := (lockLaw_of_targets (by simp)).2
    slots := fun _ _ => (ownsOrphansOnly_of_slots (by simp)).2
    locks := fun _ _ => (locksNothing_of_targets (by simp)).2
    sponsors := fun _ _ => (sponsorsNothing_of_entries (by simp)).2
    notices := fun q _ => congrFun (noticePort_of_notices (by simp)) q }
  rw [port_updPort]
  split
  · next hq => rw [hf, hq]
  · rfl

/-- The notices of an ATTACHED port. -/
theorem KeepsHoldings.setNoticePort {p : Port} (ha : (s.port p).attached = true) (v : NoticePort) :
    KeepsHoldings s (s.setNoticePort p v) where
  attached q := congrArg HostPort.attached (congrFun (port_of_ports (by simp)) q)
  lockLaw := (lockLaw_of_targets (by simp)).2
  slots _ _ := (ownsOrphansOnly_of_slots (by simp)).2
  locks _ _ := (locksNothing_of_targets (by simp)).2
  sponsors _ _ := (sponsorsNothing_of_entries (by simp)).2
  notices q hq := by
    have hne : q ≠ p := by
      rintro rfl
      rw [ha] at hq
      cases hq
    rw [noticePort_setNoticePort, if_neg hne]

/-- A notice is offered to ATTACHED ports alone (R138). -/
theorem KeepsHoldings.offer (s : State) (n : Notice) (p : Port) : KeepsHoldings s (s.offer n p) := by
  simp only [State.offer]
  split
  · next h => exact .setNoticePort (by simp_all) _
  · exact .refl s

theorem KeepsHoldings.offerTo {n : Notice} {ps : List Port} (h : KeepsHoldings s t) : KeepsHoldings s (t.offerTo n ps) :=
  h.trans (.foldl fun a p => .offer a n p)

/-! ### The slots (chapter 1) -/

theorem KeepsHoldings.freeSlotOf (s : State) (n : SlotId) : KeepsHoldings s (s.freeSlotOf n) := by
  refine .of_slots (by simp) fun q _ ho m r hr hown => ?_
  rw [request_freeSlotOf] at hr
  split at hr
  · cases hr
  · exact ho m r hr hown

/-- A completion that is no orphan's: a DETACHED port has only orphans (R13, R22). -/
theorem KeepsHoldings.finishSlot {n : SlotId} {r : Request} (hr : s.request n = some r) (ho : r.orphan = false) (x : Result) :
    KeepsHoldings s (s.finishSlot n r x) := by
  refine .of_slots (by simp) fun q _ hq m r' hr' hown => ?_
  simp only [State.finishSlot, request_setSlot, request_unlist] at hr'
  split at hr'
  · cases hr'
    obtain ⟨-, horphan⟩ := hq n r hr hown
    rw [ho] at horphan
    cases horphan
  · exact hq m r' hr' hown

theorem KeepsHoldings.completeSlot (s : State) (n : SlotId) (x : Result) : KeepsHoldings s (s.completeSlot n x) := by
  simp only [State.completeSlot]
  split
  · exact .refl s
  · next r hr =>
    cases ho : r.orphan with
    | true => exact .freeSlotOf s n
    | false =>
      have htold : KeepsHoldings s (if r.desc.notify then (s.finishSlot n r x).offer (s.completedNotice n r x) r.owner
          else s.finishSlot n r x) := by
        split
        · exact (KeepsHoldings.finishSlot hr ho x).trans (.offer _ _ _)
        · exact .finishSlot hr ho x
      simp only [Bool.false_eq_true, if_false]
      split
      · exact htold.trans (.freeSlotOf _ n)
      · exact htold

theorem KeepsHoldings.completeQueued (s : State) (p : Port) (c : Request → Bool) (o : TransferOutcome) :
    KeepsHoldings s (s.completeQueued p c o) := .foldl (fun a n => .completeSlot a n _)

theorem KeepsHoldings.completeQueuedAll (s : State) (c : Request → Bool) (o : TransferOutcome) :
    KeepsHoldings s (s.completeQueuedAll c o) := .foldl (fun a p => .completeQueued a p c o)

theorem KeepsHoldings.notLockedAll (s : State) : KeepsHoldings s s.notLockedAll :=
  .foldl fun _ _ => .foldl fun b n => .ite (.completeSlot b n _)

theorem KeepsHoldings.allocate (ha : (s.port p).attached = true) (n : SlotId) (d : Descriptor) :
    KeepsHoldings s (s.allocate p n d) := by
  refine .of_slots (by simp) fun q hq ho m r hr hown => ?_
  simp only [State.allocate, request_setList, request_setSlot] at hr
  split at hr
  · cases hr
    rw [show q = p from hown.symm, ha] at hq
    cases hq
  · exact ho m r hr hown

theorem KeepsHoldings.endSlot (s : State) (p : Port) (n : SlotId) : KeepsHoldings s (s.endSlot p n) := by
  simp only [State.endSlot]
  split
  · exact .refl s
  · split
    · split
      case h_3 =>
        exact .trans (t := s.unlist p n) (.of_fields (by simp))
          (.updRequest (.refl _) fun _ _ => ⟨rfl, fun h _ => ⟨h, rfl⟩⟩)
      all_goals exact .freeSlotOf s n
    · exact .refl s

end Sys2Proof.Machine

/-! ## What the blocks leave to the ports

The operations of the blocks change no lock record and no sponsor set but those that a lock or a sponsorship is about, and
complete slots of others as they complete their own. -/

namespace Sys2Proof.Machine

open Sys2Proof

variable {s t : State} {p : Port}

/-! ### The dispatcher (chapter 2) -/

theorem KeepsHoldings.startWork (s : State) (w : Work) : KeepsHoldings s (s.startWork w) := by
  cases w with
  | request n =>
    simp only [State.startWork]
    split
    · exact .refl s
    · have hstarted : KeepsHoldings s (s.updRequest n fun r => { r with state := .active, attempts := 0 }) :=
        .updRequest (.refl s) fun _ _ => ⟨rfl, fun _ h => ⟨rfl, h⟩⟩
      exact hstarted.setEngine
  | poll e i k m =>
    refine .trans (t := s.startPoll e m) (.updEntry (.refl s) fun u => ?_) (.of_fields ⟨rfl, rfl, rfl, rfl, rfl⟩)
    split <;> rfl
  | probe i a m =>
    have hstarted : KeepsHoldings s (s.updTarget i fun x => { x with probe := none }) :=
      .updTarget (.refl s) fun _ => ⟨rfl, rfl⟩
    exact hstarted.setEngine

theorem KeepsHoldings.select (s : State) : KeepsHoldings s s.select := by
  simp only [State.select]
  split
  · split
    · exact .refl s
    · next c x _ =>
      split
      · exact .refl s
      · next w _ =>
        exact .trans (t := { s with pointers := s.pointers.set c x }) (.of_fields ⟨rfl, rfl, rfl, rfl, rfl⟩) (.startWork _ w)
  · exact .refl s

theorem KeepsHoldings.settle (h : KeepsHoldings s t) : KeepsHoldings s t.settle :=
  h.trans ((KeepsHoldings.notLockedAll t).trans (.select _))

theorem aged_keeps (z : State) (r : Request) :
    (r.aged z).owner = r.owner ∧ (r.aged z).state = r.state ∧ (r.aged z).orphan = r.orphan := by
  simp only [Request.aged]
  split <;> exact ⟨rfl, rfl, rfl⟩

theorem KeepsHoldings.ageOne (s : State) (w : Waiting) : KeepsHoldings s (s.ageOne w) := by
  cases w with
  | slot n =>
    refine .updRequest (.refl s) fun r _ => ?_
    simp only [Request.agedQueued]
    split
    · obtain ⟨howner, hstate, horphan⟩ := aged_keeps s r
      exact ⟨howner, fun ha ho => ⟨hstate.trans ha, horphan.trans ho⟩⟩
    · exact ⟨rfl, fun ha ho => ⟨ha, ho⟩⟩
  | poll e => exact .updEntry (.refl s) fun _ => rfl
  | probe i => exact .updTarget (.refl s) fun _ => ⟨rfl, rfl⟩

theorem KeepsHoldings.ageAll (s : State) : KeepsHoldings s s.ageAll :=
  ((KeepsHoldings.foldl (fun a n => .ageOne a (.slot n))).trans (.foldl (fun a e => .ageOne a (.poll e)))).trans
    (.foldl (fun a i => .ageOne a (.probe i)))

theorem KeepsHoldings.reclassAll (s : State) : KeepsHoldings s s.reclassAll := by
  have hpolls : KeepsHoldings s s.reclassPolls := .foldl (fun a e => .updEntry (.refl a) fun _ => rfl)
  have hprobes (z : State) : KeepsHoldings z z.reclassProbes :=
    .foldl (fun a i => .updTarget (.refl a) fun _ => ⟨rfl, rfl⟩)
  exact hpolls.trans (hprobes _)

/-! ### The mirror table (chapter 3) -/

theorem KeepsHoldings.makePollDue {e : EntryId} {due : Nat} (h : KeepsHoldings s t) : KeepsHoldings s (t.makePollDue e due) :=
  h.updEntry fun _ => rfl

theorem KeepsHoldings.goStale (s : State) (e : EntryId) (u : MirrorUse) : KeepsHoldings s (s.goStale e u) :=
  .offerTo (.updEntry (.refl s) fun _ => rfl)

theorem KeepsHoldings.recheckStale (s : State) (e : EntryId) : KeepsHoldings s (s.recheckStale e) := by
  have hwritten : KeepsHoldings s (s.updEntry e (MirrorUse.rechecked s)) :=
    .updEntry (.refl s) fun u => (rechecked_keeps s u).2.1
  rw [recheckStale_eq]
  simp only [State.tellStep]
  split
  · exact hwritten
  · exact hwritten.offerTo

theorem KeepsHoldings.recheckAllStale (s : State) : KeepsHoldings s s.recheckAllStale :=
  .foldl (fun a e => .recheckStale a e)

/-- A change of sponsors that makes no DETACHED port a sponsor (R50, R56, R66). -/
theorem KeepsHoldings.setSponsors {e : EntryId} {u : MirrorUse} (hu : s.entryUse e = some u)
    {sponsors : PerPort (Option Sponsor)}
    (hsp : ∀ q, (s.port q).attached = false → u.sponsors.get q = none → sponsors.get q = none) :
    KeepsHoldings s (s.setSponsors e sponsors) := by
  have hwritten : KeepsHoldings s (s.updEntry e fun u => { u with sponsors := sponsors }) := by
    rw [updEntry_eq hu]
    refine .setEntry s e fun q hq hn v hv => ?_
    cases hv
    simpa using hsp q hq (by simpa using hn e u hu)
  have hdue (a : State) : KeepsHoldings a (a.recomputeDue e) := by
    rw [recomputeDue_eq]
    exact .updEntry (.refl a) fun u => (recomputed_keeps a _ u).2.1
  simp only [State.setSponsors, hu]
  split
  · exact hwritten.trans (hdue _)
  · exact (hwritten.trans (hdue _)).trans (.recheckStale _ e)

theorem KeepsHoldings.freeEntryOf (s : State) (e : EntryId) : KeepsHoldings s (s.freeEntryOf e) :=
  .setEntry s e fun _ _ _ u hu => by cases hu

theorem KeepsHoldings.removeSponsor (s : State) (e : EntryId) (p : Port) : KeepsHoldings s (s.removeSponsor e p) := by
  simp only [State.removeSponsor]
  split
  · exact .refl s
  · next u hu =>
    split
    · exact .refl s
    · split
      · exact .freeEntryOf s e
      · refine .setSponsors hu fun q _ hq => ?_
        rw [PerPort.get_set]
        split
        · rfl
        · exact hq

theorem KeepsHoldings.dueAfterPoll (s : State) (e : EntryId) : KeepsHoldings s (s.dueAfterPoll e) := by
  rw [dueAfterPoll_eq]
  refine .updEntry (.refl s) fun u => ?_
  simp only [MirrorUse.fallen]
  split <;> rfl

theorem KeepsHoldings.pollOk (s : State) (e : EntryId) (u : MirrorUse) (data : List Byte) :
    KeepsHoldings s (s.pollOk e u data) := by
  simp only [State.pollOk]
  split
  · exact .updEntry (.refl s) fun _ => rfl
  · have htold (n : Notice) (ps : List Port) (b : Bool) : KeepsHoldings s ((s.storeValue e data b).offerTo n ps) :=
      .offerTo (.updEntry (.refl s) fun _ => rfl)
    split
    · exact (htold _ _ _).offerTo
    · exact htold _ _ _

theorem KeepsHoldings.completePoll (s : State) (e : EntryId) (i : Byte) (o : TransferOutcome) (data : List Byte) :
    KeepsHoldings s (s.completePoll e i o data) := by
  simp only [State.completePoll]
  split
  · exact .refl s
  · split
    · refine .trans ?_ (.dueAfterPoll _ e)
      split
      · exact .pollOk s e _ data
      · exact .updEntry (.refl s) fun _ => rfl
    · exact .refl s

theorem KeepsHoldings.repend (s : State) (e : EntryId) (i : Byte) (m : Maint) : KeepsHoldings s (s.repend e i m) := by
  simp only [State.repend]
  split
  · exact .refl s
  · exact .ite (.updEntry (.refl s) fun _ => rfl)

theorem KeepsHoldings.failEntries (s : State) (a : Byte) : KeepsHoldings s (s.failEntries a) := by
  refine .foldl fun z e => ?_
  simp only [State.failEntry]
  split
  · exact .refl z
  · exact .ite (.offerTo (.updEntry (.refl z) fun _ => rfl))

theorem KeepsHoldings.returnEntries (s : State) (a : Byte) : KeepsHoldings s (s.returnEntries a) := by
  refine .foldl fun z e => ?_
  simp only [State.returnEntry]
  split
  · exact .refl z
  · exact .ite (.offerTo (.makePollDue (.updEntry (.refl z) fun _ => rfl)))

theorem KeepsHoldings.pollTimerExpires (s : State) (e : EntryId) (u : MirrorUse) (tm : Timer) :
    KeepsHoldings s (s.pollTimerExpires e u tm) := by
  have hstopped : KeepsHoldings s (s.updEntry e fun u => { u with dueTimer := none }) :=
    .updEntry (.refl s) fun _ => rfl
  simp only [State.pollTimerExpires]
  split
  · exact hstopped
  · split
    · exact hstopped.updEntry fun _ => rfl
    · exact hstopped.makePollDue.settle

/-! ### The target table (chapter 4) -/

theorem KeepsHoldings.offerTargetState (s : State) (i : TargetId) : KeepsHoldings s (s.offerTargetState i) := by
  simp only [State.offerTargetState]
  split
  · exact .refl s
  · exact .offerTo (.refl s)

theorem KeepsHoldings.scheduleProbe (s : State) (i : TargetId) : KeepsHoldings s (s.scheduleProbe i) :=
  .updTarget (.refl s) fun _ => ⟨rfl, rfl⟩

theorem KeepsHoldings.quarantineOnset (s : State) (i : TargetId) : KeepsHoldings s (s.quarantineOnset i) := by
  simp only [State.quarantineOnset]
  split
  · exact .refl s
  · have hmarked : KeepsHoldings s (s.updTarget i fun x => { x with health := .quarantined }) :=
      .updTarget (.refl s) fun _ => ⟨rfl, rfl⟩
    exact ((((hmarked.trans (.completeQueuedAll _ _ _)).trans (.notLockedAll _)).trans (.failEntries _ _)).trans
      (.scheduleProbe _ i)).trans (.offerTargetState _ i)

theorem KeepsHoldings.quarantineEnd (s : State) (i : TargetId) : KeepsHoldings s (s.quarantineEnd i) := by
  simp only [State.quarantineEnd]
  split
  · exact .refl s
  · have hcleared : KeepsHoldings s (s.updTarget i fun x =>
        { x with health := .online, failures := 0, probeTimer := none, probeDue := none, probe := none }) :=
      .updTarget (.refl s) fun _ => ⟨rfl, rfl⟩
    exact ((hcleared.trans (.notLockedAll _)).trans (.returnEntries _ _)).trans (.offerTargetState _ i)

theorem KeepsHoldings.countFailure (s : State) (i : TargetId) : KeepsHoldings s (s.countFailure i) := by
  simp only [State.countFailure]
  split
  · exact .refl s
  · next x _ =>
    have hcounted : KeepsHoldings s (s.updTarget i fun y => { y with failures := min (x.failures + 1) Config.countMax }) :=
      .updTarget (.refl s) fun _ => ⟨rfl, rfl⟩
    split
    · exact hcounted
    · split
      · exact hcounted.trans (.quarantineOnset _ i)
      · refine .trans (.trans ?_ (.notLockedAll _)) (.offerTargetState _ i)
        exact hcounted.updTarget fun _ => ⟨rfl, rfl⟩
    · split
      · exact hcounted.trans (.quarantineOnset _ i)
      · exact hcounted

theorem KeepsHoldings.countSuccess (s : State) (i : TargetId) : KeepsHoldings s (s.countSuccess i) := by
  simp only [State.countSuccess]
  split
  · exact .refl s
  · split
    · exact .quarantineEnd s i
    all_goals exact .updTarget (.refl s) fun _ => ⟨rfl, rfl⟩

theorem KeepsHoldings.account (s : State) (a : Byte) (o : TransferOutcome) (b : Bool) :
    KeepsHoldings s (s.account a o b) := by
  simp only [State.account]
  split
  · exact .refl s
  · split
    · exact .countSuccess s _
    · exact .countFailure s _
    · exact .refl s

theorem KeepsHoldings.reschedule (s : State) (i : TargetId) : KeepsHoldings s (s.reschedule i) := .ite (.scheduleProbe s i)

theorem KeepsHoldings.reprobe (s : State) (i : TargetId) (m : Maint) : KeepsHoldings s (s.reprobe i m) :=
  .updTarget (.refl s) fun x => by split <;> exact ⟨rfl, rfl⟩

theorem KeepsHoldings.redeclare (s : State) (i : TargetId) (x : Target) (d : Declaration) :
    KeepsHoldings s (s.redeclare i x d) := by
  have hwritten : KeepsHoldings s (s.updTarget i d.rewrite) := .updTarget (.refl s) fun _ => ⟨rfl, rfl⟩
  simp only [State.redeclare]
  split
  · exact hwritten.trans (.quarantineOnset _ i)
  · exact hwritten

/-! ### The monitor and the engine (chapter 6) -/

theorem KeepsHoldings.clearFault (h : KeepsHoldings s t) : KeepsHoldings s t.clearFault :=
  h.trans (.ite (.offerTo (.setMonitor (.refl t))))

theorem KeepsHoldings.reachFree (h : KeepsHoldings s t) : KeepsHoldings s t.reachFree := .clearFault (.setMonitor h)

theorem KeepsHoldings.reachForeign {l : Lines} (h : KeepsHoldings s t) : KeepsHoldings s (t.reachForeign l) :=
  .clearFault (.setMonitor h)

theorem KeepsHoldings.enterFaulted (h : KeepsHoldings s t) : KeepsHoldings s t.enterFaulted := by
  have hcompleted (m : Monitor) :
      KeepsHoldings s (((t.setMonitor m).setEngine .idle).completeQueuedAll (fun _ => true) .busFault) :=
    .trans (.setEngine (.setMonitor h)) (.completeQueuedAll _ _ _)
  simp only [State.enterFaulted]
  split
  · exact hcompleted _
  · exact (hcompleted _).setMonitor.offerTo

/-- The bus becomes free, and the dispatcher may select (R29, R115). -/
theorem KeepsHoldings.freed (s : State) : KeepsHoldings s ((s.setEngine .idle).reachFree).settle :=
  .settle (.reachFree (.setEngine (.refl s)))

theorem KeepsHoldings.endAttempt (s : State) (l : Lines) : KeepsHoldings s (s.endAttempt l) := by
  simp only [State.endAttempt]
  split
  · exact .freed s
  · split
    · exact .enterFaulted (.setMonitor (.refl s))
    · exact .of_fields (by simp)

theorem KeepsHoldings.hangExpires (s : State) : KeepsHoldings s s.hangExpires := by
  simp only [State.hangExpires]
  split
  case h_2 =>
    split
    · exact .settle (.reachFree (.setMonitor (.refl s)))
    · exact .of_fields (by simp)
  case h_1 | h_3 => split <;> exact .of_fields (by simp)
  all_goals exact .of_fields (by simp)

theorem KeepsHoldings.retimeHang (s : State) : KeepsHoldings s s.retimeHang := by
  simp only [State.retimeHang]
  split
  · exact .refl s
  · split
    · exact .trans (.setMonitor (.refl s)) (.hangExpires _)
    · exact .setMonitor (.refl s)

theorem KeepsHoldings.deliver (s : State) (w : Work) (r : Report) : KeepsHoldings s (s.deliver w r) := by
  cases w with
  | request n =>
    simp only [State.deliver]
    split
    · exact .refl s
    · exact .trans (.completeSlot s n _) (.account _ _ _ _)
  | poll e i k m => exact .trans (.completePoll s e i _ _) (.account _ _ _ _)
  | probe i a m => exact .trans (.account s a _ _) (.reschedule _ i)

theorem KeepsHoldings.finishTransfer (s : State) (w : Work) (r : Report) : KeepsHoldings s (s.finishTransfer w r) :=
  .settle (.trans (.reachFree (.setEngine (.refl s))) (.deliver _ w r))

/-- A request that is no orphan returns to QUEUED (R44, R45). -/
theorem KeepsHoldings.requeue {n : SlotId} {r : Request} (hr : s.request n = some r) (ho : r.orphan = false) :
    KeepsHoldings s (s.requeue n) := by
  refine .updRequest (.refl s) fun r' hr' => ?_
  rw [hr] at hr'
  cases hr'
  obtain ⟨howner, -, -⟩ := aged_keeps s { r with state := .queued }
  exact ⟨howner, fun _ h => by rw [ho] at h; cases h⟩

theorem KeepsHoldings.loseRequest (s : State) (n : SlotId) (b : Nat) (a : Bool) : KeepsHoldings s (s.loseRequest n b a) := by
  simp only [State.loseRequest]
  split
  · exact .refl s
  · next r hr =>
    have hcounted : KeepsHoldings s (s.updRequest n fun r => { r with losses := r.losses + 1 }) :=
      .updRequest (.refl s) fun _ _ => ⟨rfl, fun ha ho => ⟨ha, ho⟩⟩
    split
    · exact hcounted.trans (.deliver _ _ _)
    · split
      · exact hcounted.trans (.deliver _ _ _)
      · next ho =>
        split
        · exact hcounted.trans (.completeSlot _ n _)
        · split
          · exact hcounted.trans (.requeue (r := { r with losses := r.losses + 1 }) (by simp [hr]) (by simpa using ho))
          · exact hcounted.trans (.deliver _ _ _)

theorem KeepsHoldings.loseTransfer (s : State) (w : Work) (l : Lines) (b : Nat) (a : Bool) :
    KeepsHoldings s (s.loseTransfer w l b a) := by
  have hlost : KeepsHoldings s ((s.setEngine .idle).reachForeign l) := .reachForeign (.setEngine (.refl s))
  refine KeepsHoldings.settle (hlost.trans ?_)
  cases w with
  | request n => exact .loseRequest _ n b a
  | poll e i k m =>
    dsimp only
    split
    · exact .repend _ e i m
    · exact .deliver _ _ _
  | probe i x m =>
    dsimp only
    split
    · exact .reprobe _ i m
    · exact .deliver _ _ _

theorem KeepsHoldings.nackAddress (s : State) (f : Transfer) : KeepsHoldings s (s.nackAddress f) := by
  simp only [State.nackAddress]
  split
  · exact .reachFree (.refl s)
  · exact .finishTransfer s _ _

theorem KeepsHoldings.endTransfer (s : State) (f : Transfer) (how : TransferEnd) :
    KeepsHoldings s (s.endTransfer f how) := by
  simp only [State.endTransfer]
  split
  · exact .nackAddress s f
  all_goals
    split
    · exact .refl s
    · exact .finishTransfer s _ _

theorem KeepsHoldings.countAttempt (s : State) (f : Transfer) : KeepsHoldings s (s.countAttempt f) := by
  simp only [State.countAttempt]
  split
  · exact .setEngine (.updRequest (.refl s) fun _ _ => ⟨rfl, fun ha ho => ⟨ha, ho⟩⟩)
  · exact .setEngine (.refl s)

theorem KeepsHoldings.observeStart (s : State) : KeepsHoldings s s.observeStart := by
  have hmoved : KeepsHoldings s ((s.setEngine .idle).reachForeign linesAfterStart) :=
    .reachForeign (.setEngine (.refl s))
  simp only [State.observeStart]
  refine .ite ?_
  split
  · exact .loseTransfer s _ _ _ _
  · split
    · exact hmoved.setMonitor
    · exact hmoved

theorem KeepsHoldings.observeStop (s : State) : KeepsHoldings s s.observeStop := by
  simp only [State.observeStop]
  refine .ite ?_
  split
  case h_1 | h_2 | h_3 => exact .freed s
  all_goals exact .of_fields (by simp)

theorem KeepsHoldings.observeOther (s : State) (l : Lines) : KeepsHoldings s (s.observeOther l) := by
  simp only [State.observeOther]
  split
  case h_2 =>
    split
    · exact .loseTransfer s _ _ _ _
    · exact .reachForeign (.refl s)
  case h_1 => split <;> exact .of_fields (by simp)
  all_goals exact .of_fields (by simp)

theorem KeepsHoldings.observeChange (s : State) (c : LineChange) : KeepsHoldings s (s.observeChange c) := by
  simp only [State.observeChange]
  split
  · exact .refl s
  · split
    · exact .observeStart s
    · split
      · exact .observeStop s
      · exact .observeOther s _

end Sys2Proof.Machine

/-! ## Locks and session ends (R101, R106, R160)

A release passes a lock to a port that waited for it, and a session end leaves its port nothing. -/

namespace Sys2Proof.Machine

open Sys2Proof

variable {s t : State} {p q : Port} {i : TargetId} {x : Target}

/-! ### One lock record -/

/-- The oldest waiter of a target is the port that its lock passes to. -/
theorem awaits_of_waiters {w : Waiter} {ws : List Waiter} (h : x.waiters = w :: ws) :
    x.awaits q = false ↔ w.port ≠ q ∧ (ws.any fun v => v.port == q) = false := by
  simp [Target.awaits, h]

theorem passedOn_lockLaw (s : State) (h : x.lockLaw) : (x.passedOn s).lockLaw := by
  obtain ⟨hnodup, -, -⟩ := h
  cases hw : x.waiters with
  | nil => simp [Target.lockLaw, Target.passedOn, hw]
  | cons w ws =>
    rw [hw, List.map_cons, List.nodup_cons] at hnodup
    obtain ⟨hfirst, hrest⟩ := hnodup
    refine ⟨?_, fun h hlock => ?_, fun hnone => ?_⟩
    · simpa [Target.passedOn, hw] using hrest
    · simp only [Target.passedOn, hw, List.head?_cons, Option.map_some, Option.some.injEq] at hlock
      subst hlock
      simpa [Target.passedOn, Target.awaits, hw] using hfirst
    · simp [Target.passedOn, hw] at hnone

/-- A lock passes to a port that waited. -/
theorem passedOn_lacks (s : State) (hw : x.awaits q = false) : (x.passedOn s).lacks q := by
  cases hws : x.waiters with
  | nil => simp [Target.lacks, Target.passedOn, Target.awaits, hws]
  | cons w ws =>
    obtain ⟨hfirst, hrest⟩ := (awaits_of_waiters hws).1 hw
    simp [Target.lacks, Target.passedOn, Target.awaits, hws, hfirst, hrest]

/-- A holder that neither held the lock nor waited, where nobody did. -/
theorem granted_lockLaw (l : Timer) (h : x.lockLaw) (hnew : x.lock = none ∨ ∃ k, x.lock = some k ∧ k.port = p) :
    Target.lockLaw { x with lock := some ⟨p, l⟩ } := by
  obtain ⟨hnodup, hholder, hfree⟩ := h
  refine ⟨hnodup, fun k hk => ?_, by simp⟩
  cases hk
  rcases hnew with hnone | ⟨k, hk, rfl⟩
  · simp [Target.awaits, hfree hnone]
  · exact hholder k hk

theorem granted_lacks (l : Timer) (hne : p ≠ q) (h : x.lacks q) : Target.lacks { x with lock := some ⟨p, l⟩ } q :=
  ⟨fun k hk => by cases hk; exact hne, h.2⟩

/-- A port joins the wait list behind the others (R96). -/
theorem joined_lockLaw {h : Hold} (n : Nat) (hlaw : x.lockLaw) (hlock : x.lock = some h) (hne : h.port ≠ p)
    (hw : x.awaits p = false) : Target.lockLaw { x with waiters := x.waiters ++ [⟨p, n⟩] } := by
  obtain ⟨hnodup, hholder, -⟩ := hlaw
  refine ⟨?_, fun k hk => ?_, fun hnone => ?_⟩
  · have hnew : p ∉ x.waiters.map Waiter.port := by simpa [Target.awaits] using hw
    simpa [List.nodup_append, hnodup] using hnew
  · have hk' : x.lock = some k := hk
    have hold := hholder k hk'
    rw [hlock] at hk'
    cases hk'
    simpa [Target.awaits, hne.symm] using hold
  · rw [show x.lock = none from hnone] at hlock
    cases hlock

theorem joined_lacks (n : Nat) (hne : p ≠ q) (h : x.lacks q) :
    Target.lacks { x with waiters := x.waiters ++ [⟨p, n⟩] } q := by
  obtain ⟨hl, hw⟩ := h
  refine ⟨hl, ?_⟩
  simp only [Target.awaits] at hw ⊢
  simp [hw, hne]

theorem left_lockLaw (p : Port) (h : x.lockLaw) :
    Target.lockLaw { x with waiters := x.waiters.filter fun w => w.port != p } := by
  obtain ⟨hnodup, hholder, hfree⟩ := h
  refine ⟨hnodup.sublist (List.filter_sublist.map _), fun k hk => ?_, fun hnone => by simp [hfree hnone]⟩
  have hold := hholder k hk
  simp only [Target.awaits, List.any_eq_false] at hold ⊢
  exact fun w hw => hold w (List.mem_of_mem_filter hw)

theorem left_lacks (p : Port) (h : x.lacks q) : Target.lacks { x with waiters := x.waiters.filter fun w => w.port != p } q := by
  obtain ⟨hl, hw⟩ := h
  refine ⟨hl, ?_⟩
  simp only [Target.awaits, List.any_eq_false] at hw ⊢
  exact fun w hmem => hw w (List.mem_of_mem_filter hmem)

/-! ### The lock table -/

/-- A record of the target table written over. -/
theorem KeepsHoldings.writeTarget {y : Target} (hx : s.target i = some x) (hlaw : x.lockLaw → y.lockLaw)
    (hlacks : ∀ q, (s.port q).attached = false → x.lacks q → y.lacks q) : KeepsHoldings s (s.setTarget i (some y)) :=
  KeepsHoldings.setTarget (.refl s) (fun h _ hy => Option.some.inj hy ▸ hlaw (h i x hx))
    fun q hq h _ hy => Option.some.inj hy ▸ hlacks q hq (h i x hx)

theorem ne_of_attached (hp : (s.port p).attached = true) (hq : (s.port q).attached = false) : p ≠ q := by
  rintro rfl
  rw [hp] at hq
  cases hq

theorem KeepsHoldings.leaveWait (s : State) (i : TargetId) (p : Port) : KeepsHoldings s (s.leaveWait i p) := by
  cases hx : s.target i with
  | none =>
    simp only [State.leaveWait, State.updTarget, hx, Option.map_none]
    exact .setTarget (.refl s) (fun _ _ hy => by cases hy) fun _ _ _ _ hy => by cases hy
  | some x =>
    rw [leaveWait_eq hx]
    exact .writeTarget hx (left_lockLaw p) fun _ _ => left_lacks p

theorem KeepsHoldings.release (s : State) (i : TargetId) (p : Port) (c : Option LockEnd) :
    KeepsHoldings s (s.release i p c) := by
  cases hx : s.target i with
  | none =>
    simp only [State.release, hx]
    exact .refl s
  | some x =>
    have hlost : KeepsHoldings s (s.lockLost p x.addr c) := by
      have hcompleted : KeepsHoldings s (s.lockLost p x.addr none) := .foldl (fun a n => .completeSlot a n _)
      cases c with
      | none => exact hcompleted
      | some c => exact hcompleted.trans (.offer _ _ _)
    have hpassed : KeepsHoldings s ((s.lockLost p x.addr c).setTarget i (some (x.passedOn s))) :=
      hlost.setTarget (fun h _ hy => Option.some.inj hy ▸ passedOn_lockLaw s (h i x hx))
        fun q _ h _ hy => Option.some.inj hy ▸ passedOn_lacks s (h i x hx).2
    rw [release_eq hx]
    simp only [State.tellGranted]
    split
    · exact hpassed
    · exact hpassed.trans (.offer _ _ _)

theorem KeepsHoldings.endLock (s : State) (p : Port) (i : TargetId) : KeepsHoldings s (s.endLock p i) := by
  simp only [State.endLock]
  split
  · exact .refl s
  · split
    · exact .release s i p none
    · exact .leaveWait s i p

/-! ### The end of a session (R160) -/

theorem request_endSlot_other {n m : SlotId} (h : m ≠ n) (p : Port) : (s.endSlot p n).request m = s.request m := by
  simp only [State.endSlot]
  split
  · rfl
  · split
    · split <;> simp [h]
    · rfl

/-- A session end leaves its port ACTIVE orphans alone (R22). -/
theorem ownsOrphansOnly_endSlots (s : State) (p : Port) : (s.endSlots p).ownsOrphansOnly p := by
  intro n r hr hown
  obtain ⟨a, -, -, hfold⟩ := foldl_finRange_at (get := State.request) (f := fun z n => z.endSlot p n) (P := fun _ => True)
    (fun _ _ _ => trivial) (fun _ _ _ h => request_endSlot_other h p) trivial (s := s) n
  rw [State.endSlots, hfold] at hr
  simp only [State.endSlot] at hr
  split at hr
  · next hfree =>
    rw [hfree] at hr
    cases hr
  · next r' hr' =>
    split at hr
    · split at hr
      case h_3 hactive =>
        simp only [request_updRequest, request_unlist, if_true, hr', Option.map_some, Option.some.injEq] at hr
        subst hr
        exact ⟨hactive, rfl⟩
      all_goals
        rw [request_freeSlotOf, if_pos rfl] at hr
        cases hr
    · next hne =>
      rw [hr', Option.some.injEq] at hr
      subst hr
      exact absurd (beq_iff_eq.2 hown) hne

/-- Releases complete a port's orphans at most, which frees them (R23, R101). -/
theorem ownsOrphansOnly_endLocks (h : s.ownsOrphansOnly q) (p : Port) : (s.endLocks p).ownsOrphansOnly q := by
  have released (a : State) (i : TargetId) (ha : a.ownsOrphansOnly q) : (a.release i p none).ownsOrphansOnly q := by
    cases hx : a.target i with
    | none => simpa only [State.release, hx] using ha
    | some x =>
      intro n r hr hown
      rw [request_release hx] at hr
      split at hr
      · obtain ⟨r', hr', hc⟩ := Option.bind_eq_some_iff.1 hr
        simp only [Request.completed, Option.ite_none_left_eq_some, Option.some.injEq] at hc
        obtain ⟨hkept, rfl⟩ := hc
        obtain ⟨-, horphan⟩ := ha n r' hr' hown
        simp [horphan] at hkept
      · exact ha n r hr hown
  refine List.foldlRecOn (motive := fun a : State => a.ownsOrphansOnly q) _ _ h fun a ha i _ => ?_
  simp only [State.endLock]
  split
  · exact ha
  · split
    · exact released a i ha
    · exact (ownsOrphansOnly_of_slots (by simp)).2 ha

theorem target_endLock_other {j : TargetId} (h : j ≠ i) (p : Port) : (s.endLock p i).target j = s.target j := by
  simp only [State.endLock]
  split
  · rfl
  · next x hx =>
    split
    · rw [target_release hx, if_neg h]
    · rw [leaveWait_eq hx, target_setTarget, if_neg h]

/-- A session end leaves its port no lock and no place in a wait list, for a holder does not wait (R93, R106). -/
theorem locksNothing_endLocks (h : s.lockLaw) (p : Port) : (s.endLocks p).locksNothing p := by
  intro i y hy
  obtain ⟨a, ha, -, hfold⟩ := foldl_finRange_at (get := State.target) (f := fun z i => z.endLock p i) (P := State.lockLaw)
    (fun a i ha => (KeepsHoldings.endLock a p i).lockLaw ha) (fun _ _ _ h => target_endLock_other h p) h i
  rw [State.endLocks, hfold] at hy
  simp only [State.endLock] at hy
  split at hy
  · next hnone =>
    rw [hnone] at hy
    cases hy
  · next x hx =>
    split at hy
    · next hholds =>
      obtain ⟨k, hk, rfl⟩ := any_lock_iff.1 hholds
      rw [target_release hx, if_pos rfl, Option.some.injEq] at hy
      subst hy
      obtain ⟨-, hholder, -⟩ := ha i x hx
      exact passedOn_lacks a (hholder k hk)
    · next hholds =>
      rw [leaveWait_eq hx, target_setTarget, if_pos rfl, Option.some.injEq] at hy
      subst hy
      exact ⟨any_lock_eq_false.1 (Bool.eq_false_iff.2 hholds), by simp [Target.awaits]⟩

/-- A session end leaves its port no sponsorship (R72). -/
theorem sponsorsNothing_endSponsorships (s : State) (p : Port) : (s.endSponsorships p).sponsorsNothing p := by
  intro e v hv
  obtain ⟨a, -, -, hfold⟩ := foldl_finRange_at (get := State.entry) (f := fun z e => z.removeSponsor e p) (P := fun _ => True)
    (fun _ _ _ => trivial) (fun _ _ _ h => entry_removeSponsor_other h p) trivial (s := s) e
  rw [State.entryUse, State.endSponsorships, hfold, ← State.entryUse] at hv
  cases hu : a.entryUse e with
  | none =>
    rw [removeSponsor_free hu, hu] at hv
    cases hv
  | some u =>
    by_cases hp : u.sponsors.get p = none
    · rw [removeSponsor_absent hu hp, hu, Option.some.injEq] at hv
      subst hv
      simp [hp]
    · by_cases hrest : ∃ q, q ≠ p ∧ u.sponsors.get q ≠ none
      · rw [removeSponsor_one hu hp hrest, State.entryUse, entry_withSponsors, if_pos rfl, Option.some.injEq] at hv
        subst hv
        rw [(responsored_keeps a _ _ u).2.1]
        simp
      · push Not at hrest
        rw [removeSponsor_last hu hp hrest] at hv
        simp at hv

end Sys2Proof.Machine

/-! ## The laws of the locks and of the sessions through the commands and events (O56) -/

namespace Sys2Proof.Machine

open Sys2Proof

variable {s t z : State} {p : Port}

/-- One state keeps the law of the locks, and with it the law of the sessions, from another. -/
structure KeepsSessions (s t : State) : Prop where
  lockLaw : s.lockLaw → t.lockLaw
  sessionLaw : s.lockLaw → s.sessionLaw → t.sessionLaw

theorem KeepsSessions.trans (h : KeepsSessions s t) (k : KeepsSessions t z) : KeepsSessions s z :=
  ⟨k.lockLaw ∘ h.lockLaw, fun hl hs => k.sessionLaw (h.lockLaw hl) (h.sessionLaw hl hs)⟩

/-- What gives a DETACHED port nothing more keeps the law of the sessions (R160). -/
theorem KeepsHoldings.sessions (h : KeepsHoldings s t) : KeepsSessions s t where
  lockLaw := h.lockLaw
  sessionLaw _ hs q hq := by
    have hq : (s.port q).attached = false := (h.attached q).symm.trans hq
    obtain ⟨hslots, hlocks, hsponsors, hnotices⟩ := hs q hq
    exact ⟨h.slots q hq hslots, h.locks q hq hlocks, h.sponsors q hq hsponsors, (h.notices q hq).trans hnotices⟩

theorem KeepsSessions.refl (s : State) : KeepsSessions s s := (KeepsHoldings.refl s).sessions

theorem KeepsSessions.of_fields (h : t.ports = s.ports ∧ t.slots = s.slots ∧ t.targets = s.targets ∧ t.entries = s.entries
    ∧ t.notices = s.notices) : KeepsSessions s t := (KeepsHoldings.of_fields h).sessions

theorem KeepsSessions.ite {c : Prop} [Decidable c] (h : KeepsSessions s t) : KeepsSessions s (if c then t else s) := by
  split
  · exact h
  · exact .refl s

theorem KeepsSessions.settle (h : KeepsSessions s t) : KeepsSessions s t.settle :=
  h.trans (KeepsHoldings.settle (.refl t)).sessions

/-! ### Sessions end and open (R159, R160) -/

theorem KeepsSessions.endSession (s : State) (p : Port) : KeepsSessions s (s.endSession p) := by
  obtain ⟨given, hgiven⟩ : ∃ z, z = ((s.endSlots p).endLocks p).endSponsorships p := ⟨_, rfl⟩
  have hkeeps : KeepsHoldings s given := by
    have hslots : KeepsHoldings s (s.endSlots p) := .foldl (fun a n => .endSlot a p n)
    have hlocks : KeepsHoldings s ((s.endSlots p).endLocks p) := hslots.trans (.foldl (fun a i => .endLock a p i))
    exact hgiven ▸ hlocks.trans (.foldl (fun a e => .removeSponsor a e p))
  have hend : s.endSession p = (given.setNoticePort p NoticePort.fresh).updPort p fun h =>
      { h with attached := false, buffer := none } := by rw [hgiven]; rfl
  have hslots {q} : (s.endSession p).ownsOrphansOnly q ↔ given.ownsOrphansOnly q :=
    ownsOrphansOnly_of_slots (by simp [hend])
  have hlocks {q} : (s.endSession p).locksNothing q ↔ given.locksNothing q := locksNothing_of_targets (by simp [hend])
  have hsponsors {q} : (s.endSession p).sponsorsNothing q ↔ given.sponsorsNothing q :=
    sponsorsNothing_of_entries (by simp [hend])
  have hnotices (q) : (s.endSession p).noticePort q = if q = p then NoticePort.fresh else given.noticePort q := by
    rw [hend, noticePort_of_notices (updPort_fields _ _ _).2.2.2.2.2.2.1, noticePort_setNoticePort]
  refine ⟨fun h => (lockLaw_of_targets (by simp [hend])).2 (hkeeps.lockLaw h), fun hl hs q hq => ?_⟩
  by_cases hqp : q = p
  · subst hqp
    refine ⟨hslots.2 ?_, hlocks.2 ?_, hsponsors.2 ?_, by rw [hnotices, if_pos rfl]⟩ <;> rw [hgiven]
    · exact (ownsOrphansOnly_of_slots (s := (s.endSlots q).endLocks q) (by simp)).2
        (ownsOrphansOnly_endLocks (ownsOrphansOnly_endSlots s q) q)
    · exact (locksNothing_of_targets (s := (s.endSlots q).endLocks q) (by simp)).2
        (locksNothing_endLocks ((lockLaw_of_targets (s := s) (by simp)).2 hl) q)
    · exact sponsorsNothing_endSponsorships _ q
  · have hdetached : (s.port q).attached = false := by
      rw [← hkeeps.attached q, ← hq, hend, port_updPort, if_neg hqp,
        port_of_ports (setNoticePort_fields _ _ _).2.2.2.2.2.2.1]
    obtain ⟨ho, hn, hsp, hfresh⟩ := hs q hdetached
    exact ⟨hslots.2 (hkeeps.slots q hdetached ho), hlocks.2 (hkeeps.locks q hdetached hn),
      hsponsors.2 (hkeeps.sponsors q hdetached hsp), by rw [hnotices, if_neg hqp, hkeeps.notices q hdetached, hfresh]⟩

theorem KeepsSessions.openSession (s : State) (p : Port) : KeepsSessions s (s.openSession p) := by
  refine ⟨(lockLaw_of_targets (by simp)).2, fun _ hs q hq => ?_⟩
  have hdetached : (s.port q).attached = false := by
    rw [State.openSession, port_updPort] at hq
    split at hq
    · cases hq
    · exact hq
  obtain ⟨ho, hn, hsp, hfresh⟩ := hs q hdetached
  exact ⟨(ownsOrphansOnly_of_slots (by simp)).2 ho, (locksNothing_of_targets (by simp)).2 hn,
    (sponsorsNothing_of_entries (by simp)).2 hsp, (congrFun (noticePort_of_notices (by simp)) q).trans hfresh⟩

/-- A device with empty tables and notice queues as after a reset has both laws. -/
theorem KeepsSessions.of_empty (hr : ∀ n, t.request n = none) (ht : ∀ i, t.target i = none) (he : ∀ e, t.entryUse e = none)
    (hn : ∀ p, t.noticePort p = NoticePort.fresh) : KeepsSessions s t := by
  refine ⟨fun _ i x hx => ?_, fun _ _ q _ => ⟨fun n r h => ?_, fun i x hx => ?_, fun e u hu => ?_, hn q⟩⟩
  · simp [ht] at hx
  · simp [hr] at h
  · simp [ht] at hx
  · simp [he] at hu

/-! ### The commands -/

theorem KeepsHoldings.respond (s : State) (p : Port) (r : Reply) : KeepsHoldings s (s.respond p r) :=
  .updPort (.refl s) fun _ => rfl

/-- A command that needs a session is taken on ATTACHED ports alone (R154). -/
theorem attached_of_standing (h : s.standingRefusal .session p = none) : (s.port p).attached = true := by
  cases ha : (s.port p).attached with
  | true => rfl
  | false => simp [State.standingRefusal, ha] at h

theorem KeepsSessions.command {α : Type} {need : Standing} {args : Option α} {body : α → State → State × Reply}
    (hb : ∀ a, s.standingRefusal need p = none → KeepsSessions s (body a s).1) :
    KeepsSessions s (s.command p need args body) := by
  simp only [State.command]
  split
  · split
    · exact (KeepsHoldings.respond s p _).sessions
    · next hstanding =>
      split
      · exact (KeepsHoldings.respond s p _).sessions
      · next a => exact (hb a hstanding).trans (KeepsHoldings.respond _ p _).sessions
  · exact .refl s

theorem KeepsHoldings.lockBody (ha : (s.port p).attached = true) (a : Byte) (n : Nat) (w : Bool) :
    KeepsHoldings s (lockBody p a n w s).1 := by
  simp only [Machine.lockBody]
  split
  · exact .refl s
  · next i x hl =>
    obtain ⟨-, hx, -⟩ := lookup_eq_some hl
    split
    · exact .refl s
    · split
      · exact .refl s
      · next hheld =>
        split
        · exact .refl s
        · next hwaits =>
          split
          · next hfree =>
            rw [grant_eq hx]
            exact (KeepsHoldings.writeTarget hx (fun h => granted_lockLaw _ h (.inl hfree))
              fun q hq => granted_lacks _ (ne_of_attached ha hq)).settle
          · next k hk =>
            simp only [State.joinOrReport, updTarget_eq hx]
            split
            · have hother := any_lock_eq_false.1 (Bool.eq_false_iff.2 hheld) k hk
              exact .writeTarget hx (fun h => joined_lockLaw n h hk hother (Bool.eq_false_iff.2 hwaits))
                fun q hq => joined_lacks n (ne_of_attached ha hq)
            · exact .refl s

theorem KeepsHoldings.renewBody (ha : (s.port p).attached = true) (a : Byte) : KeepsHoldings s (renewBody p a s).1 := by
  simp only [Machine.renewBody]
  split
  · exact .refl s
  · next i x hl =>
    obtain ⟨-, hx, -⟩ := lookup_eq_some hl
    split
    · exact .refl s
    · next k hk =>
      split
      · next hp =>
        rw [grant_eq hx]
        exact .writeTarget hx (fun h => granted_lockLaw _ h (.inr ⟨k, hk, hp⟩))
          fun q hq => granted_lacks _ (ne_of_attached ha hq)
      · exact .refl s

theorem KeepsHoldings.unlockBody (s : State) (p : Port) (a : Byte) : KeepsHoldings s (unlockBody p a s).1 := by
  simp only [Machine.unlockBody]
  split
  · exact .refl s
  · split
    · exact (KeepsHoldings.release s _ p none).settle
    · split
      · exact .leaveWait s _ p
      · exact .refl s

theorem KeepsHoldings.forceUnlockBody (s : State) (a : Byte) : KeepsHoldings s (forceUnlockBody a s).1 := by
  simp only [Machine.forceUnlockBody]
  split
  · exact .refl s
  · split
    · exact .refl s
    · exact (KeepsHoldings.release s _ _ _).settle

theorem KeepsHoldings.submitBody (ha : (s.port p).attached = true) (d : Descriptor) :
    KeepsHoldings s (submitBody p d s).1 := by
  simp only [Machine.submitBody]
  split
  · exact .refl s
  · split
    · exact .refl s
    · exact (KeepsHoldings.allocate ha _ d).settle

theorem KeepsHoldings.cancelBody (s : State) (p : Port) (ticket : Half) : KeepsHoldings s (cancelBody p ticket s).1 := by
  simp only [Machine.cancelBody]
  split
  · exact .refl s
  · split
    · exact (KeepsHoldings.freeSlotOf s _).settle
    · exact .updRequest (.refl s) fun _ _ => ⟨rfl, fun hactive ho => ⟨hactive, ho⟩⟩
    · exact .refl s

theorem KeepsHoldings.fetchBody (s : State) (p : Port) (ticket : Half) (keep : Bool) :
    KeepsHoldings s (fetchBody p ticket keep s).1 := by
  simp only [Machine.fetchBody]
  split
  · exact .refl s
  · split
    · cases keep
      · exact .freeSlotOf s _
      · exact .refl s
    · exact .refl s
    · exact .refl s

theorem KeepsHoldings.readNoticeBody (ha : (s.port p).attached = true) : KeepsHoldings s (readNoticeBody p s).1 := by
  simp only [Machine.readNoticeBody]
  split
  · exact .refl s
  · exact .setNoticePort ha _

theorem KeepsHoldings.mirrorDefineBody (ha : (s.port p).attached = true) (k : Key) (sp : Sponsor) :
    KeepsHoldings s (mirrorDefineBody p k sp s).1 := by
  have joined {q} (hq : (s.port q).attached = false) (sponsors : PerPort (Option Sponsor)) :
      (sponsors.set p (some sp)).get q = sponsors.get q := by
    rw [PerPort.get_set, if_neg (ne_of_attached ha hq).symm]
  simp only [Machine.mirrorDefineBody]
  split
  · exact .refl s
  · split
    · exact .refl s
    · split
      · refine KeepsHoldings.settle ?_
        simp only [State.joinEntry]
        split
        · exact .refl s
        · next u hu => exact .setSponsors hu fun q hq hnone => (joined hq u.sponsors).trans hnone
      · split
        · exact .refl s
        · refine KeepsHoldings.settle (.setEntry s _ fun q hq _ u hu => ?_)
          cases hu
          simp [joined hq]

theorem KeepsHoldings.mirrorDropBody (s : State) (p : Port) (e : EntryId) : KeepsHoldings s (mirrorDropBody p e s).1 := by
  simp only [Machine.mirrorDropBody]
  split
  · exact .refl s
  · split
    · exact .refl s
    · exact (KeepsHoldings.removeSponsor s e p).settle

theorem KeepsHoldings.declareBody (s : State) (d : Declaration) : KeepsHoldings s (declareBody d s).1 := by
  simp only [Machine.declareBody]
  split
  · split
    · exact .refl s
    · exact (KeepsHoldings.redeclare s _ _ d).settle
  · split
    · exact .refl s
    · refine KeepsHoldings.setTarget (.refl s) (fun _ y hy => ?_) fun q _ _ y hy => ?_
      all_goals cases hy
      · exact ⟨List.nodup_nil, by simp [Declaration.target], fun _ => rfl⟩
      · exact ⟨by simp [Declaration.target], rfl⟩

theorem KeepsHoldings.removeBody (s : State) (a : Byte) : KeepsHoldings s (removeBody a s).1 := by
  simp only [Machine.removeBody]
  split
  · exact .refl s
  · split
    · exact .refl s
    · exact .setTarget (.refl s) (fun _ _ hy => by cases hy) fun _ _ _ _ hy => by cases hy

theorem KeepsHoldings.clearBody (s : State) (a : Byte) : KeepsHoldings s (clearBody a s).1 := by
  simp only [Machine.clearBody]
  split
  · exact .refl s
  · split
    · exact (KeepsHoldings.quarantineEnd s _).settle
    · exact .updTarget (.refl s) fun _ => ⟨rfl, rfl⟩
    · exact .refl s

theorem KeepsHoldings.setParameterBody (s : State) (i : Byte) (k : Param) (ps : Params) :
    KeepsHoldings s (setParameterBody i k ps s).1 := by
  have hset : KeepsHoldings s { s with params := ps } := .of_fields ⟨rfl, rfl, rfl, rfl, rfl⟩
  simp only [Machine.setParameterBody]
  split
  · exact .refl s
  · cases k with
    | agingLimit => exact hset.trans (.ageAll _)
    | maintenanceClass => exact hset.trans (.reclassAll _)
    | staleMultiple => exact hset.trans (.recheckAllStale _)
    | hangLimit => exact hset.trans (.retimeHang _)
    | busRate | addressRetries | lossLimit | faultRetry | maxLease | admitted => exact hset

theorem KeepsHoldings.busResetBody (s : State) : KeepsHoldings s (busResetBody s).1 := by
  simp only [Machine.busResetBody]
  split
  · exact .of_fields (by simp)
  · exact .refl s

theorem KeepsSessions.attachBody (s : State) (p : Port) : KeepsSessions s (attachBody p s).1 := by
  simp only [Machine.attachBody]
  split
  · dsimp only
    split
    · exact ((KeepsSessions.endSession s p).trans (.openSession _ p)).settle
    · exact .openSession s p
  · exact .refl s

/-- A command whose body gives a DETACHED port nothing. -/
theorem KeepsHoldings.command {α : Type} {need : Standing} {args : Option α} {body : α → State → State × Reply}
    (hb : ∀ a, s.standingRefusal need p = none → KeepsHoldings s (body a s).1)
    (h : (Host.Outcome.next (s.command p need args body) : Answer) = .next t) : KeepsSessions s t :=
  next_inj h ▸ .command fun a ha => (hb a ha).sessions

/-! ### The events -/

theorem KeepsSessions.resetBlocks (s : State) (l : Lines) (sel : Port → Bool) : KeepsSessions s (s.resetBlocks l sel) :=
  .of_empty (fun n => by simp [State.request, State.slot, State.resetBlocks, Vector.get])
    (fun i => by simp [State.target, State.resetBlocks, Vector.get])
    (fun e => by simp [State.entryUse, State.entry, State.resetBlocks, Vector.get])
    fun p => by simp [State.noticePort, State.resetBlocks]

theorem KeepsHoldings.readLines (s : State) : KeepsHoldings s s.readLines := by
  simp only [State.readLines]
  split <;> exact .of_fields (by simp)

theorem KeepsSessions.enterReset (s : State) (h : ResetHold) : KeepsSessions s (s.enterReset h) :=
  (KeepsSessions.resetBlocks s linesHigh fun _ => false).trans (.of_fields ⟨rfl, rfl, rfl, rfl, rfl⟩)

theorem KeepsSessions.leaveReset (s : State) (straps : BitVec 2) (c : ResetCause) (l : Lines) (sel : PortSet) :
    KeepsSessions s (s.leaveReset straps c l sel) :=
  ((KeepsSessions.resetBlocks s l sel.has).trans (KeepsHoldings.readLines _).sessions).trans
    (.of_fields ⟨rfl, rfl, rfl, rfl, rfl⟩)

theorem KeepsSessions.takeResetPart (s : State) (p : Port) (l : Lines) : KeepsSessions s (s.takeResetPart p l) :=
  ((KeepsSessions.resetBlocks s l _).trans (KeepsHoldings.readLines _).sessions).trans
    (.of_fields ⟨rfl, rfl, rfl, rfl, rfl⟩)

theorem KeepsSessions.next (hz : KeepsSessions s z) (h : (Host.Outcome.next z : Answer) = .next t) : KeepsSessions s t :=
  next_inj h ▸ hz

theorem KeepsSessions.event (hz : KeepsSessions s z) (h : s.event z = .next t) : KeepsSessions s t := by
  rw [← next_inj h]
  split
  · exact .refl s
  · exact hz

theorem KeepsHoldings.event (hz : KeepsHoldings s z) (h : s.event z = .next t) : KeepsSessions s t := .event hz.sessions h

/-- Every host command keeps the laws of the locks and of the sessions. -/
theorem keepsSessions_exec_header {c : Instr} {p : Port} (hc : headerPort c = some p) (h : exec c s = .next t) :
    KeepsSessions s t := by
  cases c <;> simp only [headerPort, reduceCtorEq] at hc
  case info | status | getParameter | mirrorFind | mirrorRead | targetQuery =>
    exact KeepsHoldings.command (fun _ _ => .refl s) h
  case attach => exact .next (.command fun _ _ => .attachBody s _) h
  case detach | evictPort =>
    refine .next (.command fun q _ => ?_) h
    exact .ite (KeepsSessions.endSession s _).settle
  case repeatResponse =>
    refine .next ?_ h
    exact .ite (KeepsHoldings.sessions (.updPort (.refl s) fun _ => rfl))
  case submit p args =>
    simp only [exec, execSubmit] at h
    split at h
    · exact KeepsHoldings.command (fun d hs => .submitBody (attached_of_standing hs) d) h
    · cases h
  case cancel => exact KeepsHoldings.command (fun _ _ => .cancelBody s _ _) h
  case fetch => exact KeepsHoldings.command (fun _ _ => .fetchBody s _ _ _) h
  case readNotice => exact KeepsHoldings.command (fun _ hs => .readNoticeBody (attached_of_standing hs)) h
  case setNoticeMask =>
    exact KeepsHoldings.command (fun _ hs => .setNoticePort (attached_of_standing hs) _) h
  case lock => exact KeepsHoldings.command (fun _ hs => .lockBody (attached_of_standing hs) _ _ _) h
  case renew => exact KeepsHoldings.command (fun _ hs => .renewBody (attached_of_standing hs) _) h
  case unlock => exact KeepsHoldings.command (fun _ _ => .unlockBody s _ _) h
  case mirrorDefine =>
    exact KeepsHoldings.command (fun _ hs => .mirrorDefineBody (attached_of_standing hs) _ _) h
  case mirrorDrop => exact KeepsHoldings.command (fun _ _ => .mirrorDropBody s _ _) h
  case declareTarget => exact KeepsHoldings.command (fun d _ => .declareBody s d) h
  case removeTarget => exact KeepsHoldings.command (fun _ _ => .removeBody s _) h
  case clearQuarantine => exact KeepsHoldings.command (fun _ _ => .clearBody s _) h
  case forceUnlock => exact KeepsHoldings.command (fun _ _ => .forceUnlockBody s _) h
  case setParameter => exact KeepsHoldings.command (fun _ _ => .setParameterBody s _ _ _) h
  case busReset => exact KeepsHoldings.command (fun _ _ => .busResetBody s) h
  case resetPart =>
    refine KeepsHoldings.command (fun _ _ => ?_) h
    dsimp only
    exact .updPort (.refl s) fun _ => rfl
  case unknownCommand p code =>
    simp only [exec, execUnknownCommand] at h
    split at h
    · cases h
    · refine .next ?_ h
      exact .ite (KeepsHoldings.respond s _ _).sessions
  case checkError =>
    refine .next ?_ h
    exact .ite (KeepsHoldings.sessions (.updPort (.updPort (.refl s) fun _ => rfl) fun _ => rfl))

/-- Every frame event, reset, timer expiry and event of the field bus keeps the laws of the locks and of the sessions. -/
theorem keepsSessions_exec_event {c : Instr} (hc : headerPort c = none) (h : exec c s = .next t) : KeepsSessions s t := by
  cases c <;> simp only [headerPort, reduceCtorEq] at hc
  case frameOpen | statusByteShiftedOut | frameAbandoned | ncsRiseInIdle =>
    refine KeepsHoldings.event ?_ h
    exact .ite (.updPort (.refl s) fun _ => rfl)
  case frameEnd =>
    refine .event ?_ h
    refine .ite ?_
    split
    · exact .takeResetPart s _ _
    · exact KeepsHoldings.sessions (.updPort (.refl s) fun _ => rfl)
  case resetPartTaken =>
    refine .event ?_ h
    exact .ite (.takeResetPart s _ _)
  case powerOnReset | nrstLow => exact .next (.enterReset s _) h
  case powerOnResetEnd | nrstRelease =>
    refine .next ?_ h
    refine .ite ?_
    split
    · exact .of_fields ⟨rfl, rfl, rfl, rfl, rfl⟩
    · exact .leaveReset s _ _ _ _
  case classAgingExpiry w => exact KeepsHoldings.event (.ageOne s w) h
  case lockLeaseExpiry =>
    refine KeepsHoldings.event ?_ h
    split
    · exact .refl s
    · exact .ite (KeepsHoldings.release s _ _ _).settle
  case mirrorPollDue e =>
    refine KeepsHoldings.event ?_ h
    split
    · exact .refl s
    · next u _ =>
      split
      · exact .refl s
      · exact .ite (.pollTimerExpires s e u _)
  case staleLimitExpiry e =>
    refine KeepsHoldings.event ?_ h
    split
    · exact .refl s
    · exact .ite (.goStale s e _)
  case probeDueExpiry i =>
    refine KeepsHoldings.event ?_ h
    split
    · exact .refl s
    · exact .ite (.settle (.updTarget (.refl s) fun _ => ⟨rfl, rfl⟩))
  case stretchTimeout =>
    refine KeepsHoldings.event ?_ h
    split
    · have hbegun : KeepsHoldings s s.beginSequence := .of_fields (by simp)
      exact .ite (hbegun.trans (.deliver _ _ _)).settle
    · exact .refl s
  case hangTimerExpiry | nextRecoveryAttempt =>
    refine KeepsHoldings.event ?_ h
    exact .ite (.hangExpires s)
  case idleConfirmationExpiry =>
    refine KeepsHoldings.event ?_ h
    exact .ite (.settle (.reachFree (.refl s)))
  case faultRetryExpiry =>
    refine KeepsHoldings.event ?_ h
    exact .ite (.of_fields (by simp))
  case transferCompletion how =>
    refine KeepsHoldings.event ?_ h
    split
    · exact .refl s
    · exact .endTransfer s _ how
  case arbitrationLoss =>
    refine KeepsHoldings.event ?_ h
    split
    · exact .refl s
    · exact .ite (.loseTransfer s _ _ _ _)
  case start =>
    refine KeepsHoldings.event ?_ h
    split
    · exact .refl s
    · exact .trans (.setMonitor (.refl s)) (.countAttempt _ _)
  case lineActivityBeforeStart =>
    refine KeepsHoldings.event ?_ h
    split
    · exact .refl s
    · split <;> exact .loseTransfer s _ _ _ _
  case recoveryAttemptEnd l =>
    refine KeepsHoldings.event ?_ h
    exact .ite (.endAttempt s l)
  case foreignStart => exact KeepsHoldings.event (.observeStart s) h
  case foreignStop => exact KeepsHoldings.event (.observeStop s) h
  case lineActivity c => exact KeepsHoldings.event (.observeChange s c) h
  case millisecondBoundary =>
    exact KeepsHoldings.event (z := { s with now := s.now + 1 }) (.of_fields ⟨rfl, rfl, rfl, rfl, rfl⟩) h
  case addressAttemptNack =>
    refine KeepsHoldings.event ?_ h
    split
    · exact .refl s
    · exact .nackAddress s _
  case clockStretchStart =>
    refine KeepsHoldings.event ?_ h
    split
    · exact .refl s
    · exact .setEngine (.refl s)
  case clockStretchEnd =>
    refine KeepsHoldings.event ?_ h
    split
    · exact .ite (.setEngine (.refl s))
    · exact .refl s

/-- Settles O56: a session end gives up all that its port holds, and every other operation gives a DETACHED port nothing. -/
theorem stepsKeepTheLockAndSessionLaws : Obligations.StepsKeepTheLockAndSessionLaws := by
  intro s t hlaw h
  have hkeeps : KeepsSessions s t := by
    simp only [step] at h
    split at h
    · exact .next (.refl s) h
    · next c rest _ =>
      refine .trans (t := { s with pending := rest }) (.of_fields ⟨rfl, rfl, rfl, rfl, rfl⟩) ?_
      cases hc : headerPort c with
      | none => exact keepsSessions_exec_event hc h
      | some p => exact keepsSessions_exec_header hc h
  exact ⟨hkeeps.lockLaw hlaw, hkeeps.sessionLaw hlaw⟩

end Sys2Proof.Machine

/-! ## What the events of the field bus meet

The transfer that an event finds on the engine, and what the engine's work is as a shape. -/

namespace Sys2Proof.Machine

open Sys2Proof

variable {s : State} {f : Transfer}

theorem onBus_eq (he : s.engine = .transfer f) (hm : s.monitor.state = .owned) (ht : f.stretch = none) :
    s.onBus = some f := by
  simp [State.onBus, he, hm, ht]

theorem beforeStart_eq (he : s.engine = .transfer f) (hm : s.monitor.state = .free) : s.beforeStart = some f := by
  simp [State.beforeStart, he, hm]

theorem beforeStart_none (h : ∀ f, s.engine ≠ .transfer f) : s.beforeStart = none := by
  unfold State.beforeStart
  split
  · next f he => exact absurd he (h f)
  · rfl

/-- The shape of the transfer that a descriptor asks for (R120). -/
def Descriptor.shape (d : Descriptor) : Shape := ⟨d.kind, d.index.length, d.data.length, d.readLen⟩

theorem shape_request {n : SlotId} {r : Request} (hr : s.request n = some r) :
    s.shape (.request n) = some r.desc.shape := by
  simp [State.shape, State.busWork, BusWork.shape, Descriptor.shape, hr]

theorem shape_poll (e : EntryId) (i : Byte) (k : Key) (m : Maint) : s.shape (.poll e i k m)
    = some ⟨if k.index.isEmpty then .read else .indexedRead, k.index.length, 0, k.len⟩ := rfl

theorem shape_probe (t : TargetId) (a : Byte) (m : Maint) : s.shape (.probe t a m) = some ⟨.probe, 0, 0, 0⟩ := rfl

theorem abortPending_request {n : SlotId} {r : Request} (hr : s.request n = some r) :
    s.abortPending (.request n) = r.abortPending := by
  simp [State.abortPending, hr]

theorem abortPending_of_not_request {w : Work} (h : ∀ n, w ≠ .request n) : s.abortPending w = false := by
  cases w with
  | request n => exact absurd rfl (h n)
  | poll | probe => rfl

/-- A flag that stands is set (R126). -/
theorem abortPending_of_abortStands (h : s.abortStands f = true) : s.abortPending f.work = true :=
  (Bool.and_eq_true_iff.1 h).2

theorem abortStands_eq_false (h : ¬ s.flagged f) : s.abortStands f = false :=
  Bool.eq_false_iff.2 (mt abortStands_iff_flagged.1 h)

/-- A timer whose length has passed since its set point is due (R27). -/
theorem timerDue_of {o : Option Timer} {tm : Timer} {now : Nat} (h : o = some tm) (hle : tm.setAt + tm.length ≤ now) :
    timerDue o now = true := by
  rw [h]
  exact timer_due hle

theorem bothHigh_iff {l : Lines} : bothHigh l = true ↔ l = ⟨true, true⟩ := by
  obtain ⟨fcl, fda⟩ := l
  simp [bothHigh]

theorem bothHigh_eq_false {l : Lines} (h : l ≠ ⟨true, true⟩) : bothHigh l = false :=
  Bool.eq_false_iff.2 (mt bothHigh_iff.1 h)

end Sys2Proof.Machine

/-! ## The ends of a transfer (O50) -/

namespace Sys2Proof.Machine

open Sys2Proof

variable {s : State} {f : Transfer}

/-! ### The report of an end (Table 1-12) -/

section

variable {sh : Shape} {abort early : Bool} {data : List Byte} {w : Nat}

/-- Every byte written: OK (R119, R122). -/
theorem report_finished_write (hk : sh.kind = .write) (h0 : sh.read = 0) :
    sh.report abort false (.finished []) = some ⟨.ok, sh.write, [], true⟩ := by
  simp [Shape.report, hk, h0]

/-- Every byte read, or the address of a PROBE acknowledged: OK (R119, R123). -/
theorem report_finished_read (hk : sh.kind ≠ .write) (hlen : data.length = sh.read)
    (h : early = false ∨ sh.endsAtFirstBoundary = true) :
    sh.report abort early (.finished data) = some ⟨.ok, data.length, data, true⟩ :=
  (if_pos ⟨hlen, h⟩).trans (by rw [if_neg hk])

/-- An index or write data byte left unacknowledged: DATA NACK (R122). -/
theorem report_dataNack (h : sh.stopsAfter w = true) :
    sh.report abort false (.dataNack w) = some ⟨.dataNack, w, [], true⟩ :=
  if_pos ⟨h, rfl⟩

/-- A flag honoured in the write direction: ABORTED (R126). -/
theorem report_aborted_writing (hb : early = true → w = 0) (h : sh.stopsAfter w = true) :
    sh.report true early (.aborted w []) = some ⟨.aborted, w, [], true⟩ := by
  cases early <;> simp_all [Shape.report, Shape.byFirstBoundary]

/-- A flag honoured in the read direction: ABORTED, with the bytes read (R127). -/
theorem report_aborted_reading (hne : data ≠ []) (hlt : data.length < sh.read)
    (hb : early = true → sh.kind = .read ∧ data.length = 1) :
    sh.report true early (.aborted 0 data) = some ⟨.aborted, data.length, data, true⟩ := by
  obtain ⟨b, rest, rfl⟩ := List.exists_cons_of_ne_nil hne
  cases early <;> simp_all [Shape.report, Shape.byFirstBoundary]

/-- Without the flag there is no ABORTED (R126). -/
theorem report_aborted_unset : sh.report false early (.aborted w data) = none := by
  simp [Shape.report]

/-- The three ends that a flag set since the START leaves: OK where the first boundary is the last, and ABORTED at the first
boundary of a transfer that goes on past it (R126, R127). -/
theorem report_flagged {how : TransferEnd} {rep : Report} (h : sh.report true true how = some rep) :
    (∃ data, how = .finished data ∧ data.length = sh.read ∧ sh.endsAtFirstBoundary = true)
      ∨ how = .aborted 0 [] ∧ (sh.kind = .write ∨ sh.kind = .indexedRead)
      ∨ ∃ b, how = .aborted 0 [b] ∧ sh.kind = .read ∧ 1 < sh.read := by
  cases how with
  | addressNack => cases h
  | dataNack w => simp [Shape.report] at h
  | finished data =>
    obtain ⟨⟨hlen, hend⟩, -⟩ := Option.ite_none_right_eq_some.1 h
    exact .inl ⟨data, rfl, hlen, hend.resolve_left (by simp)⟩
  | aborted w data =>
    obtain ⟨hearly, h⟩ := Option.ite_none_left_eq_some.1 h
    have hfirst : sh.byFirstBoundary w data.length = true := by simpa using hearly
    obtain ⟨rfl, hbyte⟩ := of_decide_eq_true hfirst
    cases data with
    | nil =>
      obtain ⟨hstop, -⟩ := Option.ite_none_right_eq_some.1 h
      refine .inr (.inl ⟨rfl, ?_⟩)
      cases hk : sh.kind <;> simp_all [Shape.stopsAfter]
    | cons b rest =>
      obtain ⟨⟨-, hlt⟩, -⟩ := Option.ite_none_right_eq_some.1 h
      obtain ⟨hk, hone⟩ := hbyte.resolve_left (by simp)
      obtain rfl : rest = [] := by simpa using hone
      exact .inr (.inr ⟨b, rfl, hk, hlt⟩)

end

/-! ### The events that end a transfer -/

/-- The device at the end of a transfer with its STOP: the engine IDLE, the monitor FREE, the report delivered, and the
dispatcher's re-evaluation made (R115, R119). -/
def State.ended (s : State) (f : Transfer) (report : Report) : State :=
  (({ s with engine := .idle }.madeFree).deliver f.work report).settle

theorem finishTransfer_eq_ended (s : State) (f : Transfer) (rep : Report) : s.finishTransfer f.work rep = s.ended f rep := by
  rw [State.finishTransfer, reachFree_eq_madeFree]
  rfl

theorem exec_transferCompletion (hr : s.inReset = false) (hbus : s.onBus = some f) (how : TransferEnd) :
    exec (.transferCompletion how) s = .next (s.endTransfer f how) := by
  refine (event_taken hr _).trans ?_
  rw [hbus]

section

variable {sh : Shape} {how : TransferEnd}

/-- A transfer ends as told where its shape has a report of that end (R119). -/
theorem transferCompletion_ends {rep : Report} (hr : s.inReset = false) (hbus : s.onBus = some f)
    (hsh : s.shape f.work = some sh) (hrep : sh.report (s.abortPending f.work) (s.abortStands f) how = some rep) :
    exec (.transferCompletion how) s = .next (s.ended f rep) := by
  rw [exec_transferCompletion hr hbus, ← finishTransfer_eq_ended]
  cases how with
  | addressNack => cases hrep
  | finished | dataNack | aborted => simp only [State.endTransfer, hsh, Option.bind_some, hrep]

/-- An end that the transfer cannot have leaves the state as it is. -/
theorem transferCompletion_stays (hr : s.inReset = false) (hbus : s.onBus = some f) (hsh : s.shape f.work = some sh)
    (hn : how ≠ .addressNack) (hrep : sh.report (s.abortPending f.work) (s.abortStands f) how = none) :
    exec (.transferCompletion how) s = .next s := by
  rw [exec_transferCompletion hr hbus]
  cases how with
  | addressNack => exact absurd rfl hn
  | finished | dataNack | aborted => simp only [State.endTransfer, hsh, Option.bind_some, hrep]

end

/-! ### An address left unacknowledged (R121) -/

theorem exec_addressAttemptNack (hr : s.inReset = false) (hbus : s.onBus = some f) :
    exec .addressAttemptNack s = .next (s.nackAddress f) := by
  refine (event_taken hr _).trans ?_
  rw [hbus]

/-- The attempts are counted in the slot for a host request, and in the engine for a poll or a probe (R120). -/
theorem attempts_eq {a : Nat} (hreq : ∀ n r, f.work = .request n → s.request n = some r → a = r.attempts)
    (hheld : ∀ n, f.work = .request n → s.request n ≠ none) (hother : (∀ n, f.work ≠ .request n) → a = f.attempts) :
    s.attempts f = a := by
  simp only [State.attempts]
  split
  · next n hw =>
    obtain ⟨r, hr⟩ := Option.ne_none_iff_exists'.1 (hheld n hw)
    simp [hr, hreq n r hw hr]
  · next hno => exact (hother hno).symm

theorem nackAddress_again (h : s.attempts f < 1 + s.params.addressRetries) : s.nackAddress f = s.madeFree := by
  rw [State.nackAddress, if_pos h, reachFree_eq_madeFree]

theorem nackAddress_last (h : 1 + s.params.addressRetries ≤ s.attempts f) :
    s.nackAddress f = s.ended f ⟨.addressNack, 0, [], false⟩ := by
  rw [State.nackAddress, if_neg (Nat.not_lt.2 h), finishTransfer_eq_ended]

/-! ### Where the report goes (R119) -/

theorem deliver_request {q : State} {n : SlotId} {r : Request} (hr : q.request n = some r) (rep : Report) :
    q.deliver (.request n) rep
      = (q.completeSlot n ⟨rep.outcome, rep.bytesDone, rep.data⟩).account r.desc.target rep.outcome rep.addressed := by
  simp only [State.deliver, hr]

/-! ### The transfer of a request -/

section

variable {n : SlotId} {r : Request}

/-- The ends of a request's transfer without a flag set since the START (R122, R123, R126, R127). -/
theorem requestEnds_unflagged (hr : s.inReset = false) (hbus : s.onBus = some f) (hw : f.work = .request n)
    (hreq : s.request n = some r) (hflag : ¬ s.flagged f) :
    (r.desc.kind = .write → r.desc.readLen = 0 →
        exec (.transferCompletion (.finished [])) s = .next (s.ended f ⟨.ok, r.desc.data.length, [], true⟩))
      ∧ (∀ data, r.desc.kind ≠ .write → data.length = r.desc.readLen →
        exec (.transferCompletion (.finished data)) s = .next (s.ended f ⟨.ok, data.length, data, true⟩))
      ∧ (∀ w, r.desc.kind = .write ∧ (w < r.desc.data.length ∨ w = 0) ∨ r.desc.kind = .indexedRead ∧ w = 0 →
        exec (.transferCompletion (.dataNack w)) s = .next (s.ended f ⟨.dataNack, w, [], true⟩)
          ∧ (r.abortPending = true →
            exec (.transferCompletion (.aborted w [])) s = .next (s.ended f ⟨.aborted, w, [], true⟩)))
      ∧ (∀ data, data ≠ [] → data.length < r.desc.readLen → r.abortPending = true →
        exec (.transferCompletion (.aborted 0 data)) s = .next (s.ended f ⟨.aborted, data.length, data, true⟩))
      ∧ (r.abortPending = false → ∀ w data, exec (.transferCompletion (.aborted w data)) s = .next s) := by
  have hsh := shape_request hreq
  have hab := abortPending_request hreq
  rw [← hw] at hsh hab
  have ends {how : TransferEnd} {rep : Report}
      (h : r.desc.shape.report r.abortPending false how = some rep) :
      exec (.transferCompletion how) s = .next (s.ended f rep) :=
    transferCompletion_ends hr hbus hsh (by rwa [abortStands_eq_false hflag, hab])
  refine ⟨fun hk h0 => ends ?_, fun data hk hlen => ends ?_, fun w hstop => ?_, fun data hne hlt ha => ends ?_,
    fun ha w data => transferCompletion_stays hr hbus hsh (by simp) ?_⟩
  · exact report_finished_write hk h0
  · exact report_finished_read hk hlen (.inl rfl)
  · have hstops : r.desc.shape.stopsAfter w = true := by
      rcases hstop with ⟨hk, h⟩ | ⟨hk, h⟩ <;> simp [Shape.stopsAfter, Descriptor.shape, hk, h]
    exact ⟨ends (report_dataNack hstops), fun ha => ends (by rw [ha, report_aborted_writing (by simp) hstops])⟩
  · rw [ha, report_aborted_reading hne hlt (by simp)]
  · rw [hab, ha, report_aborted_unset]

/-- With the flag set since the START, an end that is not the first boundary's cannot occur (R126, R127). -/
theorem requestStays_flagged (hr : s.inReset = false) (hbus : s.onBus = some f) (hw : f.work = .request n)
    (hreq : s.request n = some r) (hflag : s.flagged f) {how : TransferEnd} (hn : how ≠ .addressNack)
    (hfin : ∀ data, how = .finished data → data.length = r.desc.readLen →
      r.desc.kind = .probe ∨ r.desc.kind = .read ∧ r.desc.readLen ≤ 1 → False)
    (hwrite : how = .aborted 0 [] → r.desc.kind = .write ∨ r.desc.kind = .indexedRead → False)
    (hread : ∀ b, how = .aborted 0 [b] → r.desc.kind = .read → 1 < r.desc.readLen → False) :
    exec (.transferCompletion how) s = .next s := by
  have hstands := abortStands_iff_flagged.2 hflag
  have hsh := shape_request hreq
  rw [← hw] at hsh
  refine transferCompletion_stays hr hbus hsh hn (Option.eq_none_iff_forall_ne_some.2 fun rep hrep => ?_)
  rw [hstands, abortPending_of_abortStands hstands] at hrep
  rcases report_flagged hrep with ⟨data, hhow, hlen, hend⟩ | ⟨hhow, hk⟩ | ⟨b, hhow, hk, hlt⟩
  · refine hfin data hhow hlen ?_
    cases hk : r.desc.kind <;> simp_all [Shape.endsAtFirstBoundary, Descriptor.shape]
  · exact hwrite hhow hk
  · exact hread b hhow hk hlt

/-- The ends of a request's transfer with the flag set since the START (R126, R127). -/
theorem requestEnds_flagged (hr : s.inReset = false) (hbus : s.onBus = some f) (hw : f.work = .request n)
    (hreq : s.request n = some r) (hflag : s.flagged f) :
    (r.desc.kind = .write ∨ r.desc.kind = .indexedRead →
        exec (.transferCompletion (.aborted 0 [])) s = .next (s.ended f ⟨.aborted, 0, [], true⟩)
          ∧ ∀ how, how ≠ .addressNack → how ≠ .aborted 0 [] → exec (.transferCompletion how) s = .next s)
      ∧ (r.desc.kind = .read → 1 < r.desc.readLen →
        (∀ b, exec (.transferCompletion (.aborted 0 [b])) s = .next (s.ended f ⟨.aborted, 1, [b], true⟩))
          ∧ ∀ how, how ≠ .addressNack → (∀ b, how ≠ .aborted 0 [b]) → exec (.transferCompletion how) s = .next s)
      ∧ (r.desc.kind = .read → r.desc.readLen = 1 →
        (∀ b, exec (.transferCompletion (.finished [b])) s = .next (s.ended f ⟨.ok, 1, [b], true⟩))
          ∧ ∀ how, how ≠ .addressNack → (∀ b, how ≠ .finished [b]) → exec (.transferCompletion how) s = .next s)
      ∧ (r.desc.kind = .probe → r.desc.readLen = 0 →
        exec (.transferCompletion (.finished [])) s = .next (s.ended f ⟨.ok, 0, [], true⟩)
          ∧ ∀ how, how ≠ .addressNack → how ≠ .finished [] → exec (.transferCompletion how) s = .next s) := by
  have hstands := abortStands_iff_flagged.2 hflag
  have hsh := shape_request hreq
  rw [← hw] at hsh
  have ends {how : TransferEnd} {rep : Report}
      (h : r.desc.shape.report true true how = some rep) :
      exec (.transferCompletion how) s = .next (s.ended f rep) :=
    transferCompletion_ends hr hbus hsh (by rwa [hstands, abortPending_of_abortStands hstands])
  have stays {how : TransferEnd} := requestStays_flagged hr hbus hw hreq hflag (how := how)
  refine ⟨fun hk => ⟨ends ?_, fun how hn hne => stays hn ?_ (fun h _ => hne h) ?_⟩,
    fun hk hlen => ⟨fun b => ends ?_, fun how hn hne => stays hn ?_ ?_ (fun b h _ _ => hne b h)⟩,
    fun hk hlen => ⟨fun b => ends ?_, fun how hn hne => stays hn ?_ ?_ ?_⟩,
    fun hk hlen => ⟨ends ?_, fun how hn hne => stays hn ?_ ?_ ?_⟩⟩
  · exact report_aborted_writing (fun _ => rfl) (by rcases hk with hk | hk <;> simp [Shape.stopsAfter, Descriptor.shape, hk])
  · rcases hk with hk | hk <;> simp [hk]
  · rcases hk with hk | hk <;> simp [hk]
  · exact report_aborted_reading (by simp) hlen (fun _ => ⟨hk, rfl⟩)
  · exact fun data _ _ h => h.elim (by simp [hk]) fun h => Nat.not_le.2 hlen h.2
  · simp [hk]
  · exact report_finished_read (by simp [Descriptor.shape, hk]) hlen.symm
      (.inr (by simp [Shape.endsAtFirstBoundary, Descriptor.shape, hk, hlen]))
  · intro data hhow hdata _
    obtain ⟨b, rfl⟩ := List.length_eq_one_iff.1 (hdata.trans hlen)
    exact hne b hhow
  · simp [hk]
  · omega
  · exact report_finished_read (by simp [Descriptor.shape, hk]) hlen.symm
      (.inr (by simp [Shape.endsAtFirstBoundary, Descriptor.shape, hk]))
  · intro data hhow hdata _
    obtain rfl := List.length_eq_zero_iff.1 (hdata.trans hlen)
    exact hne hhow
  · simp [hk]
  · simp [hk]

end

/-- Settles O50: an end is the report that the transfer's shape has for it, and the flag decides which there are. -/
theorem transfersEnd : Obligations.TransfersEnd := by
  refine ⟨fun q o b data a => ⟨fun n r hr => deliver_request hr _, fun _ _ _ _ => rfl, fun _ _ _ => rfl⟩, ?_⟩
  intro s f hr he hm ht ended stays
  have hbus := onBus_eq he hm ht
  refine ⟨fun n r hw hreq hflag => requestEnds_unflagged hr hbus hw hreq hflag,
    fun n r hw hreq hflag => requestEnds_flagged hr hbus hw hreq hflag, fun e i k m data hw hlen => ?_,
    fun e i k m hw hk => ?_, fun t a m hw => ?_, fun attempts hreq hheld hother => ⟨?_, fun hlt => ?_, fun hle => ?_⟩⟩
  · have hstands := abortStands_of_not_request (s := s) (f := f) (by simp [hw])
    refine transferCompletion_ends hr hbus (by rw [hw, shape_poll]) ?_
    exact report_finished_read (by cases k.index <;> simp) hlen (.inl hstands)
  · have hstands := abortStands_of_not_request (s := s) (f := f) (by simp [hw])
    refine transferCompletion_ends hr hbus (by rw [hw, shape_poll]) ?_
    rw [hstands, report_dataNack (by simp [Shape.stopsAfter, hk])]
  · have hstands := abortStands_of_not_request (s := s) (f := f) (by simp [hw])
    exact transferCompletion_ends hr hbus (by rw [hw, shape_probe]) (report_finished_read (by simp) rfl (.inl hstands))
  · rw [exec_transferCompletion hr hbus, exec_addressAttemptNack hr hbus]
    rfl
  · rw [exec_addressAttemptNack hr hbus, nackAddress_again (by rwa [attempts_eq hreq hheld hother])]
  · rw [exec_addressAttemptNack hr hbus, nackAddress_last (by rwa [attempts_eq hreq hheld hother])]
    rfl

end Sys2Proof.Machine

/-! ## START, the clock stretch and the stretch timeout (O49) -/

namespace Sys2Proof.Machine

open Sys2Proof

variable {s : State} {f : Transfer}

/-! ### START (R115, R121) -/

/-- The device with the monitor gone to OWNED, the lines as a START leaves them (R115). -/
def State.owned (s : State) : State := { s with monitor := { s.monitor with state := .owned, lines := ⟨true, false⟩ } }

theorem exec_start (hr : s.inReset = false) (he : s.engine = .transfer f) (hm : s.monitor.state = .free) :
    exec .start s = .next (s.owned.countAttempt f) := by
  refine (event_taken hr _).trans ?_
  rw [beforeStart_eq he hm]
  rfl

/-- An attempt of a request is counted in its slot, and its flag as it stands is kept (R120, R126). -/
theorem countAttempt_request {n : SlotId} {r : Request} (hw : f.work = .request n) (hr : s.request n = some r) :
    s.countAttempt f = { s.setSlot n ⟨(s.slot n).issue, some { r with attempts := r.attempts + 1 }⟩ with
      engine := .transfer { f with flagAtStart := r.abortPending } } := by
  simp only [State.countAttempt, hw, updRequest_eq hr, abortPending_request hr]
  rfl

/-- An attempt of a poll or a probe is counted in the engine, and there is no flag (R120, R126). -/
theorem countAttempt_maintenance (h : ∀ n, f.work ≠ .request n) : s.countAttempt f
    = { s with engine := .transfer { f with attempts := f.attempts + 1, flagAtStart := false } } := by
  simp only [State.countAttempt, abortPending_of_not_request h]
  rfl

/-! ### The stretch (R112) -/

theorem exec_clockStretchStart (hr : s.inReset = false) (hbus : s.onBus = some f) : exec .clockStretchStart s
    = .next { s with engine := .transfer { f with stretch := some ⟨s.now, f.stretchLimit⟩ } } := by
  refine (event_taken hr _).trans ?_
  rw [hbus]
  rfl

theorem exec_clockStretchEnd (hr : s.inReset = false) (he : s.engine = .transfer f) (hm : s.monitor.state = .owned) :
    exec .clockStretchEnd s = .next { s with engine := .transfer { f with stretch := none } } := by
  refine (event_taken hr _).trans ?_
  simp only [he, if_pos hm]
  rfl

/-! ### The stretch timeout (R125) -/

theorem beginSequence_eq (s : State) :
    s.beginSequence = { s with monitor := s.monitor.inAttempt 0, engine := .recovery true } := rfl

/-- How far an attempt can have come when it is cut short, for a shape and what is told (R125, R126): nothing before the
address, what is written in a WRITE and what is read in a READ alone, and with the flag no further than its first boundary. -/
theorem reaches_of {sh : Shape} {early : Bool} {g : Progress} (hnone : g.addressed = false → g.written = 0 ∧ g.read = [])
    (hwritten : g.written ≠ 0 → sh.kind = .write ∧ g.written ≤ sh.write)
    (hread : g.read ≠ [] → (sh.kind = .read ∨ sh.kind = .indexedRead) ∧ g.read.length ≤ sh.read)
    (hearly : early = true → sh.byFirstBoundary g.written g.read.length = true) : sh.reaches early g = true := by
  have hfirst : (!early || sh.byFirstBoundary g.written g.read.length) = true := by
    cases early
    · rfl
    · exact hearly rfl
  rw [Shape.reaches, hfirst, Bool.true_and]
  cases ha : g.addressed with
  | false => simpa using hnone ha
  | true =>
    have hlen : g.read.length ≤ sh.read := by
      by_cases h : g.read = []
      · simp [h]
      · exact (hread h).2
    have hle : g.written ≤ sh.write := by
      by_cases h : g.written = 0
      · omega
      · exact (hwritten h).2
    cases hk : sh.kind <;> simp_all

/-- A timeout further than the flag lets the attempt come is no progress of its shape (R126, R127). -/
theorem not_reaches_of_late {sh : Shape} {g : Progress} (h : sh.byFirstBoundary g.written g.read.length = false) :
    sh.reaches true g = false := by
  simp [Shape.reaches, h]

theorem byFirstBoundary_iff {sh : Shape} {g : Progress} : sh.byFirstBoundary g.written g.read.length = true
    ↔ g.written = 0 ∧ (g.read = [] ∨ sh.kind = .read ∧ g.read.length = 1) := by
  rw [Shape.byFirstBoundary, decide_eq_true_iff, List.length_eq_zero_iff]

section

variable {sh : Shape} {g : Progress} {tm : Timer}

/-- A stretch timeout as far as the attempt can have come (R125). -/
theorem stretchTimeout_reached (hr : s.inReset = false) (he : s.engine = .transfer f) (hm : s.monitor.state = .owned)
    (ht : f.stretch = some tm) (hle : tm.setAt + tm.length ≤ s.now) (hsh : s.shape f.work = some sh)
    (hg : sh.reaches (s.abortStands f) g = true) : exec (.stretchTimeout g) s = .next (s.stretchExpires f g) := by
  refine (event_taken hr _).trans ?_
  simp only [he, hsh, Option.any_some]
  rw [if_pos ⟨hm, timerDue_of ht hle, hg⟩]

/-- A stretch timeout told further than the attempt can have come leaves the state as it is. -/
theorem stretchTimeout_unreached (hr : s.inReset = false) (he : s.engine = .transfer f) (hsh : s.shape f.work = some sh)
    (hg : sh.reaches (s.abortStands f) g = false) : exec (.stretchTimeout g) s = .next s := by
  refine (event_taken hr _).trans ?_
  simp [he, hsh, hg]

end

/-- Settles O49: each event acts on the transfer it finds, and the flag bounds how far a stretch timeout can have come. -/
theorem startAndStretch : Obligations.StartAndStretch := by
  intro s f hr he
  refine ⟨fun hm => ⟨fun n r hw hreq => ?_, fun hno => ?_⟩, fun hm => ⟨fun ht => ?_, ?_, ?_⟩⟩
  · rw [exec_start hr he hm, countAttempt_request (s := s.owned) hw hreq]
    rfl
  · rw [exec_start hr he hm, countAttempt_maintenance hno]
    rfl
  · exact exec_clockStretchStart hr (onBus_eq he hm ht)
  · exact exec_clockStretchEnd hr he hm
  · intro tm g sh ht hle hsh early
    refine ⟨fun hnone hwritten hread hearly => ?_, fun hflag hlate => ?_⟩
    · have hg : sh.reaches (s.abortStands f) g = true :=
        reaches_of hnone hwritten hread fun h => byFirstBoundary_iff.2 (hearly (abortStands_iff_flagged.1 h))
      rw [stretchTimeout_reached hr he hm ht hle hsh hg, State.stretchExpires, beginSequence_eq]
    · have hg : sh.reaches (s.abortStands f) g = false := by
        rw [abortStands_iff_flagged.2 hflag]
        exact not_reaches_of_late (Bool.eq_false_iff.2 (mt byFirstBoundary_iff.1 hlate))
      exact stretchTimeout_unreached hr he hsh hg

end Sys2Proof.Machine

/-! ## What the monitor observes (O52) -/

namespace Sys2Proof.Machine

open Sys2Proof

variable {s : State}

/-- Whether the engine is idle or waits between two recovery attempts: nothing of its own is on the lines (R114, R129). -/
def State.engineRests (s : State) : Prop := s.engine = .idle ∨ s.engine = .recovery false

/-- With the engine at rest the monitor classifies line changes in every state but OWNED (R114, R128). -/
theorem observes_of_rests (he : s.engineRests) (hm : s.monitor.state ≠ .owned) : s.observes = true := by
  rcases he with he | he <;> simp [State.observes, he, hm]

theorem beforeStart_of_rests (he : s.engineRests) : s.beforeStart = none :=
  beforeStart_none fun f h => by rcases he with he | he <;> simp [he] at h

/-! ### START (R115, R129, R131) -/

/-- A START with the engine at rest (R115, R116, R129, R131). -/
theorem observeStart_eq (he : s.engineRests) (hm : s.monitor.state ≠ .owned) : s.observeStart =
    (let z := { s with engine := .idle }.madeForeign ⟨true, false⟩
      if s.monitor.state = .recovering then { z with monitor := { z.monitor with hang := none } } else z) := by
  simp only [State.observeStart, observes_of_rests he hm, if_true, beforeStart_of_rests he, reachForeign_eq_madeForeign]
  rfl

theorem exec_foreignStart (hr : s.inReset = false) : exec .foreignStart s = .next s.observeStart := event_taken hr _

theorem exec_foreignStop (hr : s.inReset = false) : exec .foreignStop s = .next s.observeStop := event_taken hr _

theorem exec_lineActivity (hr : s.inReset = false) (c : LineChange) :
    exec (.lineActivity c) s = .next (s.observeChange c) := event_taken hr _

/-! ### STOP (R114, R116, R129, R131) -/

theorem observes_of_unfree (he : s.engineRests)
    (hm : s.monitor.state = .unknown ∨ s.monitor.state = .foreign ∨ s.monitor.state = .recovering) : s.observes = true :=
  observes_of_rests he (by rcases hm with hm | hm | hm <;> simp [hm])

/-- A STOP in UNKNOWN, FOREIGN or the wait between two attempts (R114, R116, R129). -/
theorem observeStop_frees (he : s.engineRests)
    (hm : s.monitor.state = .unknown ∨ s.monitor.state = .foreign ∨ s.monitor.state = .recovering) :
    s.observeStop = ({ s with engine := .idle }.madeFree).settle := by
  have hobs := observes_of_unfree he hm
  rcases hm with hm | hm | hm <;> simp only [State.observeStop, hobs, if_true, hm, reachFree_eq_madeFree] <;> rfl

/-- A STOP in FAULTED leaves it (R131). -/
theorem observeStop_faulted (he : s.engineRests) (hm : s.monitor.state = .faulted) :
    s.observeStop = { s with monitor := { s.monitor with lines := ⟨true, true⟩ } } := by
  simp only [State.observeStop, observes_of_rests he (by simp [hm]), if_true, hm]
  rfl

/-! ### How a line change is classified (R114) -/

/-- A fall of FDA with FCL high is a START. -/
theorem observeChange_start (hobs : s.observes = true) (hl : s.monitor.lines = ⟨true, true⟩) :
    s.observeChange .fdaFalls = s.observeStart := by
  simp [State.observeChange, hobs, hl, changedLines]

/-- A rise of FDA with FCL high is a STOP. -/
theorem observeChange_stop (hobs : s.observes = true) (hl : s.monitor.lines = ⟨true, false⟩) :
    s.observeChange .fdaRises = s.observeStop := by
  simp [State.observeChange, hobs, hl, changedLines]

/-- Whether a change that leaves the lines at the levels `l` is neither a START nor a STOP: one of FCL, or one of FDA with FCL
low (R114). -/
def Monitor.otherChange (m : Monitor) (c : LineChange) (l : Lines) : Prop :=
  c = .fclFalls ∧ m.lines.fcl = true ∧ l = { m.lines with fcl := false }
    ∨ c = .fclRises ∧ m.lines.fcl = false ∧ l = { m.lines with fcl := true }
    ∨ c = .fdaFalls ∧ m.lines = ⟨false, true⟩ ∧ l = ⟨false, false⟩
    ∨ c = .fdaRises ∧ m.lines = ⟨false, false⟩ ∧ l = ⟨false, true⟩

theorem observeChange_other {c : LineChange} {l : Lines} (hobs : s.observes = true) (hc : s.monitor.otherChange c l) :
    s.observeChange c = s.observeOther l := by
  rcases hc with ⟨rfl, hl, rfl⟩ | ⟨rfl, hl, rfl⟩ | ⟨rfl, hl, rfl⟩ | ⟨rfl, hl, rfl⟩
  · have hne : ({ s.monitor.lines with fcl := false } : Lines) ≠ s.monitor.lines := fun h =>
      absurd (congrArg Lines.fcl h) (by simp [hl])
    simp [State.observeChange, hobs, changedLines, hne]
  · have hne : ({ s.monitor.lines with fcl := true } : Lines) ≠ s.monitor.lines := fun h =>
      absurd (congrArg Lines.fcl h) (by simp [hl])
    simp [State.observeChange, hobs, changedLines, hne]
  · simp [State.observeChange, hobs, hl, changedLines]
  · simp [State.observeChange, hobs, hl, changedLines]

/-! ### Another change, by the state of the monitor (R114, R115, R116, R131) -/

section

variable {l : Lines}

/-- UNKNOWN with both lines high confirms that the bus is idle (R114). -/
theorem observeOther_unknown_high (hm : s.monitor.state = .unknown) (hl : l = ⟨true, true⟩) : s.observeOther l
    = { s with monitor := { s.monitor with lines := l, idle := some ⟨s.now, 1⟩, hang := none } } := by
  simp only [State.observeOther, hm, bothHigh_iff.2 hl, if_true]
  rfl

/-- UNKNOWN with a line low watches for a hang (R114). -/
theorem observeOther_unknown_low (hm : s.monitor.state = .unknown) (hl : l ≠ ⟨true, true⟩) : s.observeOther l
    = { s with monitor := { s.monitor with lines := l, idle := none, hang := some ⟨s.now, s.params.hangLimit⟩ } } := by
  simp only [State.observeOther, hm, bothHigh_eq_false hl, Bool.false_eq_true, if_false]
  rfl

/-- Activity in FREE, with no transfer on the engine, is another master's (R115). -/
theorem observeOther_free (he : s.engineRests) (hm : s.monitor.state = .free) : s.observeOther l = s.madeForeign l := by
  simp only [State.observeOther, hm, beforeStart_of_rests he, reachForeign_eq_madeForeign]

/-- Activity in FOREIGN sets the hang timer afresh (R116). -/
theorem observeOther_foreign (hm : s.monitor.state = .foreign) : s.observeOther l
    = { s with monitor := { s.monitor with lines := l, hang := some ⟨s.now, s.params.hangLimit⟩ } } := by
  simp only [State.observeOther, hm]
  rfl

/-- Activity between two attempts or in FAULTED moves nothing (R129, R131). -/
theorem observeOther_still (hm : s.monitor.state = .recovering ∨ s.monitor.state = .faulted) :
    s.observeOther l = { s with monitor := { s.monitor with lines := l } } := by
  rcases hm with hm | hm <;> simp only [State.observeOther, hm] <;> rfl

end

/-- Settles O52: with the engine at rest every change is classified, and each class acts by the state of the monitor. -/
theorem monitorObserves : Obligations.MonitorObserves := by
  intro s hr state waits
  have hwaits : waits → s.engineRests ∧ state = .recovering := fun h => ⟨.inr h.2, h.1⟩
  refine ⟨fun h => ?_, fun h => ?_, fun hm he => ?_, fun c l hc => ?_⟩
  · have hrest : s.engineRests ∧ state ≠ .owned := by
      rcases h with ⟨hm, he⟩ | h
      · exact ⟨.inl he, by rcases hm with hm | hm | hm | hm <;> simp [hm]⟩
      · exact ⟨(hwaits h).1, by simp [(hwaits h).2]⟩
    obtain ⟨he, hm⟩ := hrest
    refine ⟨?_, fun hl => ?_⟩
    · rw [exec_foreignStart hr, observeStart_eq he hm]
    · rw [exec_lineActivity hr, exec_foreignStart hr, observeChange_start (observes_of_rests he hm) hl]
  · have hrest : s.engineRests ∧ (state = .unknown ∨ state = .foreign ∨ state = .recovering) := by
      rcases h with ⟨hm, he⟩ | h
      · exact ⟨.inl he, hm.imp_right .inl⟩
      · exact (hwaits h).imp_right fun hm => .inr (.inr hm)
    obtain ⟨he, hm⟩ := hrest
    refine ⟨?_, fun hl => ?_⟩
    · rw [exec_foreignStop hr, observeStop_frees he hm]
    · rw [exec_lineActivity hr, exec_foreignStop hr, observeChange_stop (observes_of_unfree he hm) hl]
  · rw [exec_foreignStop hr, observeStop_faulted (.inl he) hm]
  · have other (he : s.engineRests) (hm : s.monitor.state ≠ .owned) :
        exec (.lineActivity c) s = .next (s.observeOther l) := by
      rw [exec_lineActivity hr, observeChange_other (observes_of_rests he hm) hc]
    refine ⟨fun hm he hl => ?_, fun hm he hl => ?_, fun hm he => ?_, fun hm he => ?_, fun h => ?_⟩
    · rw [other (.inl he) (by simp [state, hm]), observeOther_unknown_high hm hl]
    · rw [other (.inl he) (by simp [state, hm]), observeOther_unknown_low hm hl]
    · rw [other (.inl he) (by simp [state, hm]), observeOther_free (.inl he) hm]
    · rw [other (.inl he) (by simp [state, hm]), observeOther_foreign hm]
    · have hrest : s.engineRests ∧ (state = .recovering ∨ state = .faulted) :=
        h.elim (fun h => (hwaits h).imp_right .inl) fun ⟨hm, he⟩ => ⟨.inl he, .inr hm⟩
      obtain ⟨he, hm⟩ := hrest
      rw [other he (by rcases hm with hm | hm <;> simp [state, hm]), observeOther_still hm]

end Sys2Proof.Machine

/-! ## Hangs, recovery attempts and FAULTED (O53) -/

namespace Sys2Proof.Machine

open Sys2Proof

variable {s : State}

/-! ### The timers of the monitor (R114, R116, R117, R129, R131) -/

/-- The device with a recovery attempt begun, the count of failed attempts as given (R117, R128). -/
def State.inAttempt (s : State) (failed : Nat) : State :=
  { s with monitor := s.monitor.inAttempt failed, engine := .recovery true }

theorem beginAttempt_eq (s : State) : s.beginAttempt = s.inAttempt s.monitor.failed := rfl

section

variable {tm : Timer}

/-- The hang timer that expires with a line low is a hang, and begins a recovery sequence (R117). -/
theorem hangTimerExpiry_hang (hr : s.inReset = false) (ht : s.monitor.hang = some tm) (hle : tm.setAt + tm.length ≤ s.now)
    (hm : s.monitor.state = .unknown ∨ s.monitor.state = .foreign) (hl : s.monitor.lines ≠ ⟨true, true⟩) :
    exec .hangTimerExpiry s = .next (s.inAttempt 0) := by
  refine (event_taken hr _).trans (congrArg _ ((if_pos ⟨timerDue_of ht hle, hm⟩).trans ?_))
  rcases hm with hm | hm <;> simp only [State.hangExpires, hm, bothHigh_eq_false hl, Bool.false_eq_true, if_false] <;> rfl

/-- The hang timer that expires in FOREIGN with both lines high finds the bus free (R116). -/
theorem hangTimerExpiry_free (hr : s.inReset = false) (ht : s.monitor.hang = some tm) (hle : tm.setAt + tm.length ≤ s.now)
    (hm : s.monitor.state = .foreign) (hl : s.monitor.lines = ⟨true, true⟩) :
    exec .hangTimerExpiry s = .next s.madeFree.settle := by
  refine (event_taken hr _).trans (congrArg _ ((if_pos ⟨timerDue_of ht hle, .inr hm⟩).trans ?_))
  simp only [State.hangExpires, hm, bothHigh_iff.2 hl, if_true, reachFree_eq_madeFree]
  rfl

/-- The wait between two attempts ends with the next attempt (R129). -/
theorem nextRecoveryAttempt_begins (hr : s.inReset = false) (ht : s.monitor.hang = some tm)
    (hle : tm.setAt + tm.length ≤ s.now) (hm : s.monitor.state = .recovering) (he : s.engine = .recovery false) :
    exec .nextRecoveryAttempt s = .next (s.inAttempt s.monitor.failed) := by
  refine (event_taken hr _).trans (congrArg _ ((if_pos ⟨timerDue_of ht hle, hm⟩).trans ?_))
  simp only [State.hangExpires, hm, he, if_true]
  rfl

/-- The idle confirmation takes UNKNOWN to FREE (R114). -/
theorem idleConfirmationExpiry_free (hr : s.inReset = false) (ht : s.monitor.idle = some tm)
    (hle : tm.setAt + tm.length ≤ s.now) (hm : s.monitor.state = .unknown) (hl : s.monitor.lines = ⟨true, true⟩) :
    exec .idleConfirmationExpiry s = .next s.madeFree.settle := by
  refine (event_taken hr _).trans (congrArg _ ((if_pos ⟨hm, timerDue_of ht hle, bothHigh_iff.2 hl⟩).trans ?_))
  rw [reachFree_eq_madeFree]

/-- The fault retry begins an attempt (R131). -/
theorem faultRetryExpiry_begins (hr : s.inReset = false) (ht : s.monitor.retry = some tm)
    (hle : tm.setAt + tm.length ≤ s.now) (hm : s.monitor.state = .faulted) :
    exec .faultRetryExpiry s = .next (s.inAttempt s.monitor.failed) :=
  (event_taken hr _).trans (congrArg _ (if_pos ⟨hm, timerDue_of ht hle⟩))

end

/-! ### BUS RESET (R173) -/

theorem exec_busReset {p : Port} (h : s.takesHeader p = true) (hs : s.supervisor = p) (ha : (s.port p).attached = true) :
    exec (.busReset p) s = .next ((busResetBody s).1.respond p (busResetBody s).2) :=
  congrArg _ (command_taken (a := ()) h (standing_supervisor hs ha) rfl)

theorem busResetBody_faulted (hm : s.monitor.state = .faulted) :
    busResetBody s = (s.inAttempt s.monitor.failed, ⟨.done, []⟩) := if_pos hm

theorem busResetBody_busy (hm : s.monitor.state ≠ .faulted) : busResetBody s = (s, ⟨.busy, []⟩) := if_neg hm

/-! ### Entry into FAULTED (R130) -/

/-- With nothing QUEUED in the lists, a completion of the QUEUED slots changes nothing. -/
theorem completeQueuedAll_of_noneQueued (h : ∀ p, s.noneQueued p) (c : Request → Bool) (o : TransferOutcome) :
    s.completeQueuedAll c o = s :=
  List.foldlRecOn (motive := fun a : State => a = s) _ _ rfl fun a ha p _ => by
    have hnone : s.queuedSuch p c = [] := List.filter_eq_nil_iff.2 fun n hn hq => by
      obtain ⟨r, hr, hc⟩ := (Option.any_eq_true _ _).1 hq
      simp only [Bool.and_eq_true, beq_iff_eq] at hc
      exact h p n hn r hr hc.1
    rw [ha, State.completeQueued, hnone, List.foldl_nil]

/-- The monitor's record in FAULTED: the flag set and the fault retry timer running (R130). -/
def Monitor.inFault (m : Monitor) (now retry : Nat) : Monitor :=
  { m with state := .faulted, busFault := true, hang := none, idle := none, retry := some ⟨now, retry⟩ }

/-- The device gone to FAULTED, before the completions and the notice (R130). -/
def State.inFault (s : State) : State :=
  { s with monitor := s.monitor.inFault s.now s.params.faultRetry, engine := .idle }

/-- BUS STATE carrying FAULTED, offered to the attached ports unless the flag was set before (R130). -/
def State.tellFault (s : State) (known : Bool) : State :=
  if known then s else s.offerTo (.busState .faulted) (Port.all.filter fun p => (s.port p).attached)

/-- The entry into FAULTED: the move, the completions, the notice (R130). The completions do not read the flag, which the model
sets after them. -/
theorem enterFaulted_eq (s : State) :
    s.enterFaulted = (s.inFault.completeQueuedAll (fun _ => true) .busFault).tellFault s.monitor.busFault := by
  have hmove (m : Monitor) : ({ s with monitor := m, engine := .idle } : State).completeQueuedAll (fun _ => true) .busFault
      = (s.completeQueuedAll (fun _ => true) .busFault).beside s.entries s.targets m .idle :=
    completeQueuedAll_beside s s.entries s.targets m .idle _ _
  simp only [State.enterFaulted, State.inFault, State.setMonitor, State.setEngine, hmove, State.tellFault]
  generalize s.completeQueuedAll (fun _ => true) .busFault = z
  cases hf : s.monitor.busFault with
  | true => simp only [if_true, Monitor.inFault, ← hf, State.timer]
  | false => rfl

theorem tellFault_frame (s : State) (known : Bool) :
    s.tellFault known = { s with notices := (s.tellFault known).notices } := by
  cases known with
  | true => rfl
  | false => apply State.eq_of_fields <;> simp [State.tellFault]

/-- The completions of FAULTED and its notice bear on slots, lists and notices alone (R130). -/
theorem faultCompletions_frame (s : State) (known : Bool) (o : TransferOutcome) :
    let z := (s.completeQueuedAll (fun _ => true) o).tellFault known
    z = { s with slots := z.slots, lists := z.lists, notices := z.notices } := by
  intro z
  apply State.eq_of_fields <;> simp only [z] <;> rw [tellFault_frame] <;> simp

theorem request_tellFault (s : State) (known : Bool) : (s.tellFault known).request = s.request := by
  rw [tellFault_frame]
  rfl

/-! ### The end of an attempt (R128, R129, R130) -/

section

variable {lines : Lines}

theorem exec_recoveryAttemptEnd (hr : s.inReset = false) (he : s.engine = .recovery true) (lines : Lines) :
    exec (.recoveryAttemptEnd lines) s = .next (s.endAttempt lines) :=
  (event_taken hr _).trans (congrArg _ (if_pos he))

/-- Both lines high: the attempt succeeds (R129). -/
theorem endAttempt_succeeds (s : State) : s.endAttempt ⟨true, true⟩ = ({ s with engine := .idle }.madeFree).settle := by
  rw [State.endAttempt, if_pos (bothHigh_iff.2 rfl), reachFree_eq_madeFree]
  rfl

/-- The device with a failed attempt counted (R129). -/
def State.countFailedAttempt (s : State) (lines : Lines) : State :=
  { s with monitor := { s.monitor with failed := min (s.monitor.failed + 1) 255, lines := lines } }

/-- A failure below the limit: the wait for the next attempt (R129). -/
theorem endAttempt_waits (hl : lines ≠ ⟨true, true⟩) (hlt : min (s.monitor.failed + 1) 255 < 3) : s.endAttempt lines
    = { s with
        monitor := { s.monitor with
          failed := min (s.monitor.failed + 1) 255, lines := lines, hang := some ⟨s.now, s.params.hangLimit⟩ }
        engine := .recovery false } := by
  rw [State.endAttempt, if_neg (by simp [bothHigh_eq_false hl])]
  exact if_neg (Nat.not_le.2 hlt)

/-- A failure at the limit: FAULTED (R130). -/
theorem endAttempt_faults (hl : lines ≠ ⟨true, true⟩) (hle : 3 ≤ min (s.monitor.failed + 1) 255) :
    s.endAttempt lines = (s.countFailedAttempt lines).enterFaulted := by
  rw [State.endAttempt, if_neg (by simp [bothHigh_eq_false hl])]
  exact if_pos hle

end

/-- Settles O53: each timer by the state it meets, and the end of an attempt by the levels read and the count. -/
theorem recoveryAndFault : Obligations.RecoveryAndFault := by
  intro s hr
  refine ⟨fun tm ht hle => ⟨fun hm hl => hangTimerExpiry_hang hr ht hle hm hl, fun hm hl => hangTimerExpiry_free hr ht hle hm hl,
    fun hm he => nextRecoveryAttempt_begins hr ht hle hm he⟩,
    fun tm ht hle hm hl => idleConfirmationExpiry_free hr ht hle hm hl,
    fun tm ht hle hm => faultRetryExpiry_begins hr ht hle hm, fun p h hs ha => ⟨fun hm => ?_, fun hm => ?_⟩,
    fun he => ⟨?_, ?_⟩⟩
  · rw [exec_busReset h hs ha, busResetBody_faulted hm]
    rfl
  · rw [exec_busReset h hs ha, busResetBody_busy hm]
  · rw [exec_recoveryAttemptEnd hr he, endAttempt_succeeds]
  · rintro lines failed hl rfl
    refine ⟨fun hlt => by rw [exec_recoveryAttemptEnd hr he, endAttempt_waits hl hlt], fun hle => ?_⟩
    intro faulted completed
    have hfaulted : (s.countFailedAttempt lines).inFault = faulted := rfl
    have hexec : exec (.recoveryAttemptEnd lines) s = .next (completed.tellFault s.monitor.busFault) := by
      rw [exec_recoveryAttemptEnd hr he, endAttempt_faults hl hle, enterFaulted_eq, hfaulted]
      rfl
    have hports : completed.port = s.port := port_of_ports (by simp [completed, faulted])
    refine ⟨⟨_, hexec, ?_, faultCompletions_frame faulted _ _, fun n r hreq hq => ?_, fun p n r hn hreq hq ho => ?_⟩,
      fun hnone => ?_⟩
    · rw [State.tellFault, hports]
    · rw [request_tellFault, request_completeQueuedAll_of_not_queued]
      · exact hreq
      · rintro r' hr'
        obtain rfl : r = r' := Option.some.inj (hreq.symm.trans hr')
        exact hq
    · rw [request_tellFault, request_completeQueuedAll_taken (s := faulted) hn hreq hq rfl, Request.completed, ho,
        Bool.false_or]
      rfl
    · have hsame : completed = faulted := completeQueuedAll_of_noneQueued (s := faulted) hnone _ _
      rw [hexec, hsame]
      rfl

end Sys2Proof.Machine

/-! ## The notice queue (O24, O25)

When two notices coalesce, the law of a queue in two cases, and what an offer and a reading do to a queue. -/

namespace Sys2Proof.Machine

open Sys2Proof

variable {s : State} {p : Port} {n a b : Notice} {q front : List Notice} {c : Nat}

/-! ### Coalescing (R139) -/

theorem coalesces_iff : a.coalesces b = true ↔
    (∃ e x y, a = .mirrorChanged e x ∧ b = .mirrorChanged e y) ∨ (∃ e x y, a = .mirrorState e x ∧ b = .mirrorState e y)
      ∨ (∃ t h c h' c', a = .targetState t h c ∧ b = .targetState t h' c') ∨ ∃ x y, a = .busState x ∧ b = .busState y := by
  constructor
  · intro h
    unfold Notice.coalesces at h
    split at h
    · obtain rfl := beq_iff_eq.1 h
      exact .inl ⟨_, _, _, rfl, rfl⟩
    · obtain rfl := beq_iff_eq.1 h
      exact .inr (.inl ⟨_, _, _, rfl, rfl⟩)
    · obtain rfl := beq_iff_eq.1 h
      exact .inr (.inr (.inl ⟨_, _, _, _, _, rfl, rfl⟩))
    · exact .inr (.inr (.inr ⟨_, _, rfl, rfl⟩))
    · cases h
  · rintro (⟨e, x, y, rfl, rfl⟩ | ⟨e, x, y, rfl, rfl⟩ | ⟨t, h, c, h', c', rfl, rfl⟩ | ⟨x, y, rfl, rfl⟩) <;>
      simp [Notice.coalesces]

theorem coalesces_symm (h : a.coalesces b = true) : b.coalesces a = true := by
  obtain ⟨e, x, y, rfl, rfl⟩ | ⟨e, x, y, rfl, rfl⟩ | ⟨t, h, c, h', c', rfl, rfl⟩ | ⟨x, y, rfl, rfl⟩ := coalesces_iff.1 h <;>
    simp [Notice.coalesces]

theorem coalesces_comm (a b : Notice) : a.coalesces b = b.coalesces a :=
  Bool.eq_iff_iff.2 ⟨coalesces_symm, coalesces_symm⟩

/-- Notices that coalesce have one subject: they coalesce with the same others. -/
theorem coalesces_congr (h : a.coalesces n = true) (b : Notice) : n.coalesces b = a.coalesces b := by
  obtain ⟨e, x, y, rfl, rfl⟩ | ⟨e, x, y, rfl, rfl⟩ | ⟨t, h, c, h', c', rfl, rfl⟩ | ⟨x, y, rfl, rfl⟩ := coalesces_iff.1 h <;>
    cases b <;> rfl

/-- The kinds that coalesce are none of them OVERFLOW. -/
theorem isOverflow_of_coalesces (h : a.coalesces b = true) : a.isOverflow = false := by
  obtain ⟨e, x, y, rfl, rfl⟩ | ⟨e, x, y, rfl, rfl⟩ | ⟨t, h, c, h', c', rfl, rfl⟩ | ⟨x, y, rfl, rfl⟩ := coalesces_iff.1 h <;> rfl

/-- An OVERFLOW entry coalesces with nothing. -/
theorem coalesces_overflow (a : Notice) (c : Nat) : a.coalesces (.overflow c) = false := by
  rw [coalesces_comm]
  exact Bool.eq_false_iff.2 fun h => Bool.false_ne_true (isOverflow_of_coalesces h).symm

/-- A queued notice after a new one has been offered that it may coalesce with (step 2 of R138). -/
def Notice.refresh (n a : Notice) : Notice := if a.coalesces n then n else a

theorem refresh_coalesces (n a b : Notice) : (n.refresh a).coalesces b = a.coalesces b := by
  simp only [Notice.refresh]
  split
  · next h => exact coalesces_congr h b
  · rfl

theorem refresh_coalesces_refresh (n a b : Notice) : (n.refresh a).coalesces (n.refresh b) = a.coalesces b := by
  rw [refresh_coalesces, coalesces_comm, refresh_coalesces, coalesces_comm]

theorem refresh_isOverflow (n a : Notice) : (n.refresh a).isOverflow = a.isOverflow := by
  simp only [Notice.refresh]
  split
  · next h => rw [isOverflow_of_coalesces h, isOverflow_of_coalesces (coalesces_symm h)]
  · rfl

theorem refresh_overflow (n : Notice) (c : Nat) : n.refresh (.overflow c) = .overflow c := by
  rw [Notice.refresh, coalesces_comm, coalesces_overflow]
  rfl

/-! ### The law of one queue (R138, R140) -/

/-- The law of a queue without an OVERFLOW entry. -/
structure PlainQueue (q : List Notice) : Prop where
  room : q.length ≤ 15
  plain : ∀ a ∈ q, a.isOverflow = false
  distinct : distinctSubjects q

theorem distinctSubjects_concat : distinctSubjects (q ++ [n]) ↔ distinctSubjects q ∧ ∀ a ∈ q, a.coalesces n = false := by
  simp [distinctSubjects, List.pairwise_append]

theorem distinctSubjects_overflowed : distinctSubjects (q ++ [.overflow c]) ↔ distinctSubjects q :=
  distinctSubjects_concat.trans (and_iff_left fun a _ => coalesces_overflow a c)

/-- A lawful queue is plain, or it is plain before an OVERFLOW entry with a count from 1 to 255. -/
theorem queueLaw_iff : queueLaw q ↔
    PlainQueue q ∨ ∃ front c, q = front ++ [.overflow c] ∧ PlainQueue front ∧ 1 ≤ c ∧ c ≤ 255 := by
  constructor
  · rintro ⟨front, last, rfl, hroom, hplain, rfl | ⟨c, rfl, hpos, hmax⟩, hd⟩
    · rw [List.append_nil] at hd ⊢
      exact .inl ⟨hroom, hplain, hd⟩
    · exact .inr ⟨front, c, rfl, ⟨hroom, hplain, distinctSubjects_overflowed.1 hd⟩, hpos, hmax⟩
  · rintro (⟨hroom, hplain, hd⟩ | ⟨front, c, rfl, ⟨hroom, hplain, hd⟩, hpos, hmax⟩)
    · exact ⟨q, [], (List.append_nil q).symm, hroom, hplain, .inl rfl, hd⟩
    · exact ⟨front, _, rfl, hroom, hplain, .inr ⟨c, rfl, hpos, hmax⟩, distinctSubjects_overflowed.2 hd⟩

theorem queueLaw_nil : queueLaw [] := queueLaw_iff.2 (.inl ⟨Nat.zero_le _, by simp, .nil⟩)

theorem queueLaw_overflowed (h : PlainQueue q) (hpos : 1 ≤ c) (hmax : c ≤ 255) : queueLaw (q ++ [.overflow c]) :=
  queueLaw_iff.2 (.inr ⟨q, c, rfl, h, hpos, hmax⟩)

theorem plainQueue_map_refresh (h : PlainQueue q) (n : Notice) : PlainQueue (q.map n.refresh) where
  room := by simpa using h.room
  plain := by simpa [refresh_isOverflow] using h.plain
  distinct := by simpa [distinctSubjects, List.pairwise_map, refresh_coalesces_refresh] using h.distinct

theorem queueLaw_map_refresh (h : queueLaw q) (n : Notice) : queueLaw (q.map n.refresh) := by
  obtain hplain | ⟨front, c, rfl, hplain, hpos, hmax⟩ := queueLaw_iff.1 h
  · exact queueLaw_iff.2 (.inl (plainQueue_map_refresh hplain n))
  · rw [List.map_append, List.map_singleton, refresh_overflow]
    exact queueLaw_overflowed (plainQueue_map_refresh hplain n) hpos hmax

theorem PlainQueue.tail (h : PlainQueue (n :: q)) : PlainQueue q where
  room := (Nat.le_succ _).trans h.room
  plain a ha := h.plain a (.tail _ ha)
  distinct := (List.pairwise_cons.1 h.distinct).2

/-- The head of a lawful queue taken: the rest is lawful, has at most 15 entries, and is empty where the head was OVERFLOW
(R142). -/
theorem queueLaw_cons (h : queueLaw (n :: q)) : queueLaw q ∧ q.length ≤ 15 ∧ (n.isOverflow = true → q = []) := by
  have plain_head {rest : List Notice} (hl : PlainQueue (n :: rest)) (ho : n.isOverflow = true) : q = [] :=
    absurd ho (Bool.eq_false_iff.1 (hl.plain n (.head _)))
  obtain hl | ⟨front, c, heq, hfront, hpos, hmax⟩ := queueLaw_iff.1 h
  · exact ⟨queueLaw_iff.2 (.inl hl.tail), hl.tail.room, plain_head hl⟩
  · cases front with
    | nil =>
      obtain ⟨-, rfl⟩ := List.cons.inj heq
      exact ⟨queueLaw_nil, Nat.zero_le _, fun _ => rfl⟩
    | cons m rest =>
      obtain ⟨rfl, rfl⟩ := List.cons.inj heq
      exact ⟨queueLaw_overflowed hfront.tail hpos hmax, by simpa using hfront.room, plain_head hfront⟩

/-! ### The steps of an offer (R138) -/

/-- Only an OVERFLOW entry has a lost count (R140). -/
theorem countLost_of_plain (h : a.isOverflow = false) : a.countLost = a := by
  cases a with
  | overflow => cases h
  | _ => rfl

theorem enqueue_refreshes (h : ∃ a ∈ q, a.coalesces n = true) : enqueue q n = q.map n.refresh :=
  if_pos (List.any_eq_true.2 h)

section

variable (hnew : ∀ a ∈ q, a.coalesces n = false)
include hnew

theorem enqueue_new :
    enqueue q n = if q.any Notice.isOverflow then q.map Notice.countLost
      else if Config.noticeRoom ≤ q.length then q ++ [.overflow 1] else q ++ [n] :=
  if_neg (by simpa using hnew)

theorem enqueue_counts (hq : q = front ++ [.overflow c]) (hplain : ∀ a ∈ front, a.isOverflow = false) :
    enqueue q n = front ++ [.overflow (min (c + 1) 255)] := by
  have hkept : front.map Notice.countLost = front := by
    rw [List.map_congr_left fun a ha => countLost_of_plain (hplain a ha), List.map_id']
  rw [enqueue_new hnew, if_pos (by simp [hq, Notice.isOverflow]), hq, List.map_append, hkept]
  rfl

theorem enqueue_overflows (hplain : ∀ a ∈ q, a.isOverflow = false) (hfull : 15 ≤ q.length) :
    enqueue q n = q ++ [.overflow 1] := by
  rw [enqueue_new hnew, if_neg (by simpa using hplain)]
  exact if_pos hfull

theorem enqueue_appends (hplain : ∀ a ∈ q, a.isOverflow = false) (hroom : q.length < 15) : enqueue q n = q ++ [n] := by
  rw [enqueue_new hnew, if_neg (by simpa using hplain)]
  exact if_neg (Nat.not_le.2 hroom)

end

/-- Each of the steps leaves a lawful queue lawful. -/
theorem queueLaw_enqueue (ho : n.isOverflow = false) (h : queueLaw q) : queueLaw (enqueue q n) := by
  by_cases hc : ∃ a ∈ q, a.coalesces n = true
  · rw [enqueue_refreshes hc]
    exact queueLaw_map_refresh h n
  · have hnew : ∀ a ∈ q, a.coalesces n = false := by simpa using hc
    obtain hlaw | ⟨front, c, hq, hfront, hpos, hmax⟩ := queueLaw_iff.1 h
    · have ⟨hroom, hplain, hd⟩ := hlaw
      by_cases hfull : 15 ≤ q.length
      · rw [enqueue_overflows hnew hplain hfull]
        exact queueLaw_overflowed hlaw (by omega) (by omega)
      · rw [enqueue_appends hnew hplain (by omega)]
        refine queueLaw_iff.2 (.inl ⟨by simp; omega, ?_, distinctSubjects_concat.2 ⟨hd, hnew⟩⟩)
        simpa [or_imp, forall_and, ho] using hplain
    · rw [enqueue_counts hnew hq hfront.plain]
      exact queueLaw_overflowed hfront (by omega) (by omega)

/-! ### An offer to a port (R136, R138) -/

/-- The mask has a bit for each kind but OVERFLOW (R136). -/
theorem maskRecords_eq (ho : n.isOverflow = false) (m : Byte) : maskRecords m n = m.getLsbD (n.kindCode.toNat - 1) := by
  have hkind : n.kindCode.toNat ≤ 7 := by
    cases n with
    | overflow => cases ho
    | _ => simp [Notice.kindCode]
  simp [maskRecords, hkind]

theorem isOverflow_of_maskRecords {m : Byte} (h : maskRecords m n = true) : n.isOverflow = false := by
  cases n with
  | overflow => simp [maskRecords, Notice.kindCode] at h
  | _ => rfl

theorem offer_recorded (ha : (s.port p).attached = true) (hm : maskRecords (s.noticePort p).mask n = true) :
    s.offer n p = s.setNoticePort p ⟨enqueue (s.noticePort p).queue n, (s.noticePort p).mask⟩ :=
  if_pos (by simp [ha, hm])

theorem offer_unrecorded (h : ¬ ((s.port p).attached = true ∧ maskRecords (s.noticePort p).mask n = true)) :
    s.offer n p = s := if_neg (by simpa using h)

theorem queueLaw_offer (h : queueLaw (s.noticePort p).queue) (n : Notice) : queueLaw ((s.offer n p).noticePort p).queue := by
  by_cases hr : (s.port p).attached = true ∧ maskRecords (s.noticePort p).mask n = true
  · obtain ⟨ha, hm⟩ := hr
    rw [offer_recorded ha hm, noticePort_setNoticePort, if_pos rfl]
    exact queueLaw_enqueue (isOverflow_of_maskRecords hm) h
  · rwa [offer_unrecorded hr]

/-- Settles O24: the offer is the step of `enqueue` whose conditions hold. -/
theorem offerActsByTheFirstStep : Obligations.OfferActsByTheFirstStep := by
  refine ⟨fun a b => coalesces_iff, fun s n p ho => ?_⟩
  intro q m recorded
  have hmask : maskRecords m n = m.getLsbD (n.kindCode.toNat - 1) := maskRecords_eq ho m
  have taken (h : recorded) : s.offer n p = s.setNoticePort p ⟨enqueue q n, m⟩ := offer_recorded h.1 (hmask.trans h.2)
  refine ⟨fun h => offer_unrecorded ?_, fun h hc => ?_, fun h hnew => ⟨fun front c hq hplain => ?_, fun hplain hfull => ?_,
    fun hplain hroom => ?_⟩, fun h => queueLaw_offer h n⟩
  · rwa [hmask]
  · rw [taken h, enqueue_refreshes hc]
    rfl
  · rw [taken h, enqueue_counts hnew hq hplain]
  · rw [taken h, enqueue_overflows hnew hplain hfull]
  · rw [taken h, enqueue_appends hnew hplain hroom]

/-! ### READ NOTICE and SET NOTICE MASK (R137, R142) -/

/-- A command of the notice block needs a session (R154). -/
theorem standing_detached (h : (s.port p).attached = false) : s.standingRefusal .session p = some .notAttached := by
  simp [State.standingRefusal, h]

theorem exec_readNotice (h : s.takesHeader p = true) (ha : (s.port p).attached = true) :
    exec (.readNotice p) s = .next ((readNoticeBody p s).1.respond p (readNoticeBody p s).2) :=
  congrArg Host.Outcome.next (command_taken h (standing_session ha) rfl)

theorem readNoticeBody_empty (hq : (s.noticePort p).queue = []) : readNoticeBody p s = (s, ⟨.empty, []⟩) := by
  simp only [readNoticeBody, hq, Reply.plain]

theorem readNoticeBody_head (hq : (s.noticePort p).queue = n :: q) : readNoticeBody p s
    = (s.setNoticePort p ⟨q, (s.noticePort p).mask⟩, ⟨.done, countByte q.length :: n.record⟩) := by
  simp only [readNoticeBody, hq]

/-- Settles O25: READ NOTICE by the head of the queue, SET NOTICE MASK with a mask in range. -/
theorem readNoticeRemovesTheHead : Obligations.ReadNoticeRemovesTheHead := by
  intro s p h
  refine ⟨fun ha => congrArg Host.Outcome.next (command_refused h (standing_detached ha)), fun ha =>
    ⟨fun hq => ?_, fun n rest hq => ⟨?_, fun hlaw => ?_⟩, fun m hm => ?_⟩⟩
  · rw [exec_readNotice h ha, readNoticeBody_empty hq]
  · rw [exec_readNotice h ha, readNoticeBody_head hq]
    rfl
  · rw [hq] at hlaw
    exact (queueLaw_cons hlaw).2
  · exact congrArg Host.Outcome.next (command_taken h (standing_session ha) (if_neg (Bool.eq_false_iff.1 hm)))

end Sys2Proof.Machine

/-! ## The law of the notice queues through the blocks

The blocks reach the queues by offers alone, and an offer keeps the law whatever the notice; so each operation keeps it. -/

namespace Sys2Proof.Machine

open Sys2Proof

variable {s t : State} {p : Port} {n : SlotId} {e : EntryId} {i : TargetId}

/-! ### What keeps the law -/

/-- What leaves the ports and the queues keeps the law of the queues. -/
theorem State.noticeLaw.of_fields (h : s.noticeLaw) (hf : t.ports = s.ports ∧ t.notices = s.notices) : t.noticeLaw := by
  obtain ⟨hports, hnotices⟩ := hf
  rwa [State.noticeLaw, port_of_ports hports, noticePort_of_notices hnotices]

theorem State.noticeLaw.setEngine {g : Engine} (h : s.noticeLaw) : (s.setEngine g).noticeLaw := h.of_fields (by simp)

theorem State.noticeLaw.setMonitor {m : Monitor} (h : s.noticeLaw) : (s.setMonitor m).noticeLaw := h.of_fields (by simp)

theorem State.noticeLaw.setTarget {v : Option Target} (h : s.noticeLaw) : (s.setTarget i v).noticeLaw :=
  h.of_fields (by simp)

theorem State.noticeLaw.updTarget {f : Target → Target} (h : s.noticeLaw) : (s.updTarget i f).noticeLaw :=
  h.of_fields (by simp)

theorem State.noticeLaw.updEntry {f : MirrorUse → MirrorUse} (h : s.noticeLaw) : (s.updEntry e f).noticeLaw :=
  h.of_fields (by simp)

theorem State.noticeLaw.updRequest {f : Request → Request} (h : s.noticeLaw) : (s.updRequest n f).noticeLaw :=
  h.of_fields (by simp)

/-- A port that does not go DETACHED. -/
theorem State.noticeLaw.updPort {f : HostPort → HostPort} (h : s.noticeLaw)
    (hf : ∀ k, (f k).attached = false → k.attached = false) : (s.updPort p f).noticeLaw := by
  intro q
  obtain ⟨hqueue, hfresh⟩ := h q
  rw [noticePort_of_notices (updPort_fields s p f).2.2.2.2.2.2.1, port_updPort]
  refine ⟨hqueue, fun hq => hfresh ?_⟩
  split at hq
  · next heq => exact heq ▸ hf _ hq
  · exact hq

/-- A lawful queue, and any mask, on an ATTACHED port. -/
theorem State.noticeLaw.setNoticePort {v : NoticePort} (h : s.noticeLaw) (ha : (s.port p).attached = true)
    (hv : queueLaw v.queue) : (s.setNoticePort p v).noticeLaw := by
  intro q
  obtain ⟨hqueue, hfresh⟩ := h q
  rw [noticePort_setNoticePort, port_of_ports (setNoticePort_fields s p v).2.2.2.2.2.2.1]
  split
  · next heq => exact ⟨hv, fun hq => absurd (heq ▸ ha) (Bool.eq_false_iff.1 hq)⟩
  · exact ⟨hqueue, hfresh⟩

/-- Queues and masks as after a reset. -/
theorem noticeLaw_of_fresh (h : ∀ q, s.noticePort q = NoticePort.fresh) : s.noticeLaw :=
  fun q => ⟨by rw [h q]; exact queueLaw_nil, fun _ => h q⟩

theorem State.noticeLaw.ite {c : Prop} [Decidable c] (ht : t.noticeLaw) (hs : s.noticeLaw) :
    (if c then t else s).noticeLaw := by
  split
  · exact ht
  · exact hs

theorem State.noticeLaw.foldl {β : Type} {f : State → β → State} {l : List β} (h : s.noticeLaw)
    (hf : ∀ a b, a.noticeLaw → (f a b).noticeLaw) : (l.foldl f s).noticeLaw :=
  List.foldlRecOn (motive := State.noticeLaw) _ _ h fun a ha b _ => hf a b ha

/-- An offer keeps the law: it reaches an ATTACHED port alone (R138). -/
theorem State.noticeLaw.offer {m : Notice} (h : s.noticeLaw) : (s.offer m p).noticeLaw := by
  by_cases hr : (s.port p).attached = true ∧ maskRecords (s.noticePort p).mask m = true
  · obtain ⟨ha, hm⟩ := hr
    obtain ⟨hqueue, -⟩ := h p
    rw [offer_recorded ha hm]
    exact h.setNoticePort ha (queueLaw_enqueue (isOverflow_of_maskRecords hm) hqueue)
  · rwa [offer_unrecorded hr]

theorem State.noticeLaw.offerTo {m : Notice} {ps : List Port} (h : s.noticeLaw) : (s.offerTo m ps).noticeLaw :=
  h.foldl fun _ _ ha => ha.offer

/-! ### The slot pool and the dispatcher (chapters 1 and 2) -/

theorem State.noticeLaw.freeSlotOf (h : s.noticeLaw) : (s.freeSlotOf n).noticeLaw := h.of_fields (by simp)

theorem State.noticeLaw.completeSlot {x : Result} (h : s.noticeLaw) : (s.completeSlot n x).noticeLaw := by
  simp only [State.completeSlot]
  split
  · exact h
  · next r _ =>
    have hdone : (s.finishSlot n r x).noticeLaw := h.of_fields (by simp)
    have htold : (if r.desc.notify then (s.finishSlot n r x).offer (s.completedNotice n r x) r.owner
        else s.finishSlot n r x).noticeLaw := hdone.offer.ite hdone
    exact h.freeSlotOf.ite (htold.freeSlotOf.ite htold)

theorem State.noticeLaw.completeQueued {c : Request → Bool} {o : TransferOutcome} (h : s.noticeLaw) :
    (s.completeQueued p c o).noticeLaw := h.foldl fun _ _ ha => ha.completeSlot

theorem State.noticeLaw.completeQueuedAll {c : Request → Bool} {o : TransferOutcome} (h : s.noticeLaw) :
    (s.completeQueuedAll c o).noticeLaw := h.foldl fun _ _ ha => ha.completeQueued

theorem State.noticeLaw.notLockedAll (h : s.noticeLaw) : s.notLockedAll.noticeLaw :=
  h.foldl fun _ _ ha => ha.foldl fun _ _ hb => hb.completeSlot.ite hb

theorem State.noticeLaw.select (h : s.noticeLaw) : s.select.noticeLaw := h.of_fields (by simp)

theorem State.noticeLaw.settle (h : s.noticeLaw) : s.settle.noticeLaw := h.notLockedAll.select

/-! ### The mirror table (chapter 3) -/

theorem State.noticeLaw.goStale {u : MirrorUse} (h : s.noticeLaw) : (s.goStale e u).noticeLaw := h.updEntry.offerTo

theorem State.noticeLaw.recheckStale (h : s.noticeLaw) : (s.recheckStale e).noticeLaw := by
  simp only [State.recheckStale]
  split
  · exact h
  · refine .ite ?_ h
    split
    · exact h
    · exact h.goStale.ite h.updEntry

theorem State.noticeLaw.recheckAllStale (h : s.noticeLaw) : s.recheckAllStale.noticeLaw :=
  h.foldl fun _ _ ha => ha.recheckStale

theorem State.noticeLaw.setSponsors {x : PerPort (Option Sponsor)} (h : s.noticeLaw) : (s.setSponsors e x).noticeLaw := by
  simp only [State.setSponsors]
  split
  · exact h
  · have hdue : ((s.updEntry e fun u => { u with sponsors := x }).recomputeDue e).noticeLaw := h.of_fields (by simp)
    exact hdue.ite hdue.recheckStale

theorem State.noticeLaw.takeEntry {k : Key} {x : Sponsor} {b : Bool} (h : s.noticeLaw) :
    (s.takeEntry e p k x b).noticeLaw := h.of_fields (by simp)

theorem State.noticeLaw.joinEntry {x : Sponsor} (h : s.noticeLaw) : (s.joinEntry e p x).noticeLaw := by
  simp only [State.joinEntry]
  split
  · exact h
  · exact h.setSponsors

theorem State.noticeLaw.removeSponsor (h : s.noticeLaw) : (s.removeSponsor e p).noticeLaw := by
  simp only [State.removeSponsor]
  split
  · exact h
  · exact h.ite ((h.of_fields (by simp)).ite h.setSponsors)

theorem State.noticeLaw.pollOk {u : MirrorUse} {d : List Byte} (h : s.noticeLaw) : (s.pollOk e u d).noticeLaw := by
  have htold (b : Bool) (k : Notice) (ps : List Port) : ((s.storeValue e d b).offerTo k ps).noticeLaw := h.updEntry.offerTo
  exact h.updEntry.ite ((htold _ _ _).offerTo.ite (htold _ _ _))

theorem State.noticeLaw.dueAfterPoll (h : s.noticeLaw) : (s.dueAfterPoll e).noticeLaw := h.of_fields (by simp)

theorem State.noticeLaw.completePoll {k : Byte} {o : TransferOutcome} {d : List Byte} (h : s.noticeLaw) :
    (s.completePoll e k o d).noticeLaw := by
  simp only [State.completePoll]
  split
  · exact h
  · exact (h.pollOk.ite h.updEntry).dueAfterPoll.ite h

theorem State.noticeLaw.failEntries {a : Byte} (h : s.noticeLaw) : (s.failEntries a).noticeLaw := by
  refine h.foldl fun b e hb => ?_
  simp only [State.failEntry]
  split
  · exact hb
  · exact hb.updEntry.offerTo.ite hb

theorem State.noticeLaw.returnEntries {a : Byte} (h : s.noticeLaw) : (s.returnEntries a).noticeLaw := by
  refine h.foldl fun b e hb => ?_
  simp only [State.returnEntry]
  split
  · exact hb
  · exact hb.updEntry.updEntry.offerTo.ite hb

theorem State.noticeLaw.pollTimerExpires {u : MirrorUse} {tm : Timer} (h : s.noticeLaw) :
    (s.pollTimerExpires e u tm).noticeLaw :=
  h.updEntry.ite (h.updEntry.updEntry.ite h.updEntry.updEntry.settle)

/-! ### The target table and the locks (chapters 4 and 5) -/

theorem State.noticeLaw.offerTargetState (h : s.noticeLaw) : (s.offerTargetState i).noticeLaw := by
  simp only [State.offerTargetState]
  split
  · exact h
  · exact h.offerTo

theorem State.noticeLaw.quarantineOnset (h : s.noticeLaw) : (s.quarantineOnset i).noticeLaw := by
  simp only [State.quarantineOnset]
  split
  · exact h
  · exact h.updTarget.completeQueuedAll.notLockedAll.failEntries.updTarget.offerTargetState

theorem State.noticeLaw.quarantineEnd (h : s.noticeLaw) : (s.quarantineEnd i).noticeLaw := by
  simp only [State.quarantineEnd]
  split
  · exact h
  · exact h.updTarget.notLockedAll.returnEntries.offerTargetState

theorem State.noticeLaw.countFailure (h : s.noticeLaw) : (s.countFailure i).noticeLaw := by
  simp only [State.countFailure]
  split
  · exact h
  · split
    · exact h.updTarget
    · exact h.updTarget.quarantineOnset.ite h.updTarget.updTarget.notLockedAll.offerTargetState
    · exact h.updTarget.quarantineOnset.ite h.updTarget

theorem State.noticeLaw.countSuccess (h : s.noticeLaw) : (s.countSuccess i).noticeLaw := by
  simp only [State.countSuccess]
  split
  · exact h
  · split
    · exact h.quarantineEnd
    all_goals exact h.updTarget

theorem State.noticeLaw.account {a : Byte} {o : TransferOutcome} {b : Bool} (h : s.noticeLaw) :
    (s.account a o b).noticeLaw := by
  simp only [State.account]
  split
  · exact h
  · split
    · exact h.countSuccess
    · exact h.countFailure
    · exact h

theorem State.noticeLaw.redeclare {x : Target} {d : Declaration} (h : s.noticeLaw) : (s.redeclare i x d).noticeLaw :=
  h.updTarget.quarantineOnset.ite h.updTarget

theorem State.noticeLaw.grantNext (h : s.noticeLaw) : (s.grantNext i).noticeLaw := by
  simp only [State.grantNext]
  split
  · exact h
  · split
    · exact h
    · exact h.updTarget.updTarget.offer

theorem State.noticeLaw.release {c : Option LockEnd} (h : s.noticeLaw) : (s.release i p c).noticeLaw := by
  simp only [State.release]
  split
  · exact h
  · cases c with
    | none => exact h.updTarget.completeQueued.grantNext
    | some c => exact h.updTarget.completeQueued.offer.grantNext

theorem State.noticeLaw.endLock (h : s.noticeLaw) : (s.endLock p i).noticeLaw := by
  simp only [State.endLock]
  split
  · exact h
  · exact h.release.ite h.updTarget

/-! ### The monitor and the engine (chapter 6) -/

theorem State.noticeLaw.clearFault (h : s.noticeLaw) : s.clearFault.noticeLaw := h.setMonitor.offerTo.ite h

theorem State.noticeLaw.reachFree (h : s.noticeLaw) : s.reachFree.noticeLaw := h.setMonitor.clearFault

theorem State.noticeLaw.reachForeign {l : Lines} (h : s.noticeLaw) : (s.reachForeign l).noticeLaw := h.setMonitor.clearFault

theorem State.noticeLaw.enterFaulted (h : s.noticeLaw) : s.enterFaulted.noticeLaw := by
  have hcompleted (m : Monitor) :
      (((s.setMonitor m).setEngine .idle).completeQueuedAll (fun _ => true) .busFault).noticeLaw :=
    h.setMonitor.setEngine.completeQueuedAll
  exact (hcompleted _).ite (hcompleted _).setMonitor.offerTo

theorem State.noticeLaw.endAttempt {l : Lines} (h : s.noticeLaw) : (s.endAttempt l).noticeLaw :=
  h.setEngine.reachFree.settle.ite (h.setMonitor.enterFaulted.ite h.setMonitor.setMonitor.setEngine)

theorem State.noticeLaw.beginAttempt (h : s.noticeLaw) : s.beginAttempt.noticeLaw := h.setMonitor.setEngine

theorem State.noticeLaw.beginSequence (h : s.noticeLaw) : s.beginSequence.noticeLaw := h.setMonitor.beginAttempt

theorem State.noticeLaw.hangExpires (h : s.noticeLaw) : s.hangExpires.noticeLaw := by
  simp only [State.hangExpires]
  split
  · exact h.setMonitor.ite h.setMonitor.beginSequence
  · exact h.setMonitor.reachFree.settle.ite h.setMonitor.beginSequence
  · exact h.setMonitor.beginAttempt.ite h.setMonitor
  all_goals exact h.setMonitor

theorem State.noticeLaw.retimeHang (h : s.noticeLaw) : s.retimeHang.noticeLaw := by
  simp only [State.retimeHang]
  split
  · exact h
  · exact h.setMonitor.hangExpires.ite h.setMonitor

theorem State.noticeLaw.deliver {w : Work} {r : Report} (h : s.noticeLaw) : (s.deliver w r).noticeLaw := by
  cases w with
  | request n =>
    simp only [State.deliver]
    split
    · exact h
    · exact h.completeSlot.account
  | poll e k key m => exact h.completePoll.account
  | probe i a m => exact h.account.updTarget.ite h.account

theorem State.noticeLaw.finishTransfer {w : Work} {r : Report} (h : s.noticeLaw) : (s.finishTransfer w r).noticeLaw :=
  h.setEngine.reachFree.deliver.settle

theorem State.noticeLaw.nackAddress {f : Transfer} (h : s.noticeLaw) : (s.nackAddress f).noticeLaw :=
  h.reachFree.ite h.finishTransfer

theorem State.noticeLaw.endTransfer {f : Transfer} {how : TransferEnd} (h : s.noticeLaw) :
    (s.endTransfer f how).noticeLaw := by
  simp only [State.endTransfer]
  split
  · exact h.nackAddress
  all_goals
    split
    · exact h
    · exact h.finishTransfer

theorem State.noticeLaw.loseRequest {b : Nat} {a : Bool} (h : s.noticeLaw) : (s.loseRequest n b a).noticeLaw := by
  simp only [State.loseRequest]
  split
  · exact h
  · have hcounted := h.updRequest (n := n) (f := fun r => { r with losses := r.losses + 1 })
    exact hcounted.deliver.ite (hcounted.deliver.ite (hcounted.completeSlot.ite (hcounted.updRequest.ite hcounted.deliver)))

theorem State.noticeLaw.loseTransfer {w : Work} {l : Lines} {b : Nat} {a : Bool} (h : s.noticeLaw) :
    (s.loseTransfer w l b a).noticeLaw := by
  have hlost : ((s.setEngine .idle).reachForeign l).noticeLaw := h.setEngine.reachForeign
  refine State.noticeLaw.settle ?_
  cases w with
  | request n => exact hlost.loseRequest
  | poll e k key m => exact .ite (hlost.of_fields (by simp)) hlost.deliver
  | probe i x m => exact .ite hlost.updTarget hlost.deliver

theorem State.noticeLaw.stretchExpires {f : Transfer} {g : Progress} (h : s.noticeLaw) : (s.stretchExpires f g).noticeLaw :=
  h.beginSequence.deliver.settle

theorem State.noticeLaw.observeStart (h : s.noticeLaw) : s.observeStart.noticeLaw := by
  simp only [State.observeStart]
  refine .ite ?_ h
  split
  · exact h.loseTransfer
  · exact h.setEngine.reachForeign.setMonitor.ite h.setEngine.reachForeign

theorem State.noticeLaw.observeStop (h : s.noticeLaw) : s.observeStop.noticeLaw := by
  simp only [State.observeStop]
  refine .ite ?_ h
  split
  case h_1 | h_2 | h_3 => exact h.setEngine.reachFree.settle
  case h_4 => exact h.setMonitor
  all_goals exact h

theorem State.noticeLaw.observeOther {l : Lines} (h : s.noticeLaw) : (s.observeOther l).noticeLaw := by
  simp only [State.observeOther]
  split
  case h_1 => exact h.setMonitor.setMonitor.ite h.setMonitor.setMonitor
  case h_2 =>
    split
    · exact h.loseTransfer
    · exact h.reachForeign
  case h_3 => exact h.setMonitor.setMonitor
  all_goals exact h.setMonitor

theorem State.noticeLaw.observeChange {c : LineChange} (h : s.noticeLaw) : (s.observeChange c).noticeLaw :=
  h.ite (h.observeStart.ite (h.observeStop.ite h.observeOther))

/-! ### Sessions and resets (chapters 8 and 9) -/

/-- The end of a session empties the queue and restores the mask as the port goes DETACHED (R145). -/
theorem State.noticeLaw.endSession (h : s.noticeLaw) : (s.endSession p).noticeLaw := by
  have hslots : (s.endSlots p).noticeLaw := h.of_fields (by simp)
  have hlocks : ((s.endSlots p).endLocks p).noticeLaw := hslots.foldl fun _ _ ha => ha.endLock
  obtain ⟨given, hgiven⟩ : ∃ z, z = ((s.endSlots p).endLocks p).endSponsorships p := ⟨_, rfl⟩
  have hlaw : given.noticeLaw := hgiven ▸ hlocks.foldl fun _ _ ha => ha.removeSponsor
  have hend : s.endSession p = (given.setNoticePort p NoticePort.fresh).updPort p fun k =>
      { k with attached := false, buffer := none } := by rw [hgiven]; rfl
  intro q
  rw [hend, noticePort_of_notices (updPort_fields _ _ _).2.2.2.2.2.2.1, noticePort_setNoticePort, port_updPort,
    port_of_ports (setNoticePort_fields _ _ _).2.2.2.2.2.2.1]
  split
  · exact ⟨queueLaw_nil, fun _ => rfl⟩
  · exact hlaw q

theorem State.noticeLaw.openSession (h : s.noticeLaw) : (s.openSession p).noticeLaw := h.updPort fun _ ha => by cases ha

theorem noticeLaw_resetBlocks (s : State) (l : Lines) (sel : Port → Bool) : (s.resetBlocks l sel).noticeLaw :=
  noticeLaw_of_fresh fun q => by simp [State.noticePort, State.resetBlocks]

theorem State.noticeLaw.readLines (h : s.noticeLaw) : s.readLines.noticeLaw := h.setMonitor.ite h.setMonitor

theorem noticeLaw_enterReset (s : State) (k : ResetHold) : (s.enterReset k).noticeLaw :=
  (noticeLaw_resetBlocks s linesHigh fun _ => false).of_fields ⟨rfl, rfl⟩

theorem noticeLaw_leaveReset (s : State) (straps : BitVec 2) (c : ResetCause) (l : Lines) (sel : PortSet) :
    (s.leaveReset straps c l sel).noticeLaw := (noticeLaw_resetBlocks s _ _).readLines.of_fields ⟨rfl, rfl⟩

theorem noticeLaw_takeResetPart (s : State) (p : Port) (l : Lines) : (s.takeResetPart p l).noticeLaw :=
  (noticeLaw_resetBlocks s _ _).readLines.of_fields ⟨rfl, rfl⟩

end Sys2Proof.Machine

/-! ## The law of the notice queues through the commands and events (O55) -/

namespace Sys2Proof.Machine

open Sys2Proof

variable {s t z : State} {p : Port}

/-! ### The commands -/

theorem State.noticeLaw.respond {r : Reply} (h : s.noticeLaw) : (s.respond p r).noticeLaw := h.updPort fun _ ha => ha

theorem State.noticeLaw.shiftOut {b : List Byte} (h : s.noticeLaw) : (s.shiftOut p b).noticeLaw := h.updPort fun _ ha => ha

theorem State.noticeLaw.command {α : Type} {need : Standing} {args : Option α} {body : α → State → State × Reply}
    (h : s.noticeLaw) (hb : ∀ a, s.standingRefusal need p = none → (body a s).1.noticeLaw) :
    (s.command p need args body).noticeLaw := by
  refine .ite ?_ h
  split
  · exact h.respond
  · next hstanding =>
    split
    · exact h.respond
    · exact (hb _ hstanding).respond

theorem State.noticeLaw.attachBody (h : s.noticeLaw) : (attachBody p s).1.noticeLaw := by
  simp only [Machine.attachBody]
  split
  · exact h.endSession.openSession.settle.ite h.openSession
  · exact h

theorem State.noticeLaw.submitBody {d : Descriptor} (h : s.noticeLaw) : (submitBody p d s).1.noticeLaw := by
  simp only [Machine.submitBody]
  split
  · exact h
  · split
    · exact h
    · exact State.noticeLaw.settle (h.of_fields (by simp))

theorem State.noticeLaw.cancelBody {k : Half} (h : s.noticeLaw) : (cancelBody p k s).1.noticeLaw := by
  simp only [Machine.cancelBody]
  split
  · exact h
  · split
    · exact h.freeSlotOf.settle
    · exact h.updRequest
    · exact h

theorem State.noticeLaw.fetchBody {k : Half} {keep : Bool} (h : s.noticeLaw) : (fetchBody p k keep s).1.noticeLaw := by
  simp only [Machine.fetchBody]
  split
  · exact h
  · split
    · exact h.ite h.freeSlotOf
    all_goals exact h

/-- What is left when the head is taken is lawful (R142). -/
theorem State.noticeLaw.readNoticeBody (h : s.noticeLaw) (ha : (s.port p).attached = true) :
    (readNoticeBody p s).1.noticeLaw := by
  cases hq : (s.noticePort p).queue with
  | nil => rwa [readNoticeBody_empty hq]
  | cons n rest =>
    obtain ⟨hqueue, -⟩ := h p
    rw [hq] at hqueue
    obtain ⟨hrest, -⟩ := queueLaw_cons hqueue
    rw [readNoticeBody_head hq]
    exact h.setNoticePort ha hrest

theorem State.noticeLaw.lockBody {a : Byte} {l : Nat} {w : Bool} (h : s.noticeLaw) : (lockBody p a l w s).1.noticeLaw := by
  simp only [Machine.lockBody]
  split
  · exact h
  · split
    · exact h
    · split
      · exact h
      · split
        · exact h
        · split
          · exact State.noticeLaw.settle h.updTarget
          · simp only [State.joinOrReport]
            split
            · exact h.updTarget
            · exact h

theorem State.noticeLaw.renewBody {a : Byte} (h : s.noticeLaw) : (renewBody p a s).1.noticeLaw := by
  simp only [Machine.renewBody]
  split
  · exact h
  · split
    · exact h
    · split
      · exact h.updTarget
      · exact h

theorem State.noticeLaw.unlockBody {a : Byte} (h : s.noticeLaw) : (unlockBody p a s).1.noticeLaw := by
  simp only [Machine.unlockBody]
  split
  · exact h
  · split
    · exact h.release.settle
    · split
      · exact h.updTarget
      · exact h

theorem State.noticeLaw.forceUnlockBody {a : Byte} (h : s.noticeLaw) : (forceUnlockBody a s).1.noticeLaw := by
  simp only [Machine.forceUnlockBody]
  split
  · exact h
  · split
    · exact h
    · exact h.release.settle

theorem State.noticeLaw.mirrorDefineBody {k : Key} {x : Sponsor} (h : s.noticeLaw) :
    (mirrorDefineBody p k x s).1.noticeLaw := by
  simp only [Machine.mirrorDefineBody]
  split
  · exact h
  · split
    · exact h
    · split
      · exact h.joinEntry.settle
      · split
        · exact h
        · exact h.takeEntry.settle

theorem State.noticeLaw.mirrorDropBody {e : EntryId} (h : s.noticeLaw) : (mirrorDropBody p e s).1.noticeLaw := by
  simp only [Machine.mirrorDropBody]
  split
  · exact h
  · split
    · exact h
    · exact h.removeSponsor.settle

theorem State.noticeLaw.declareBody {d : Declaration} (h : s.noticeLaw) : (declareBody d s).1.noticeLaw := by
  simp only [Machine.declareBody]
  split
  · split
    · exact h
    · exact h.redeclare.settle
  · split
    · exact h
    · exact h.setTarget

theorem State.noticeLaw.removeBody {a : Byte} (h : s.noticeLaw) : (removeBody a s).1.noticeLaw := by
  simp only [Machine.removeBody]
  split
  · exact h
  · split
    · exact h
    · exact h.setTarget

theorem State.noticeLaw.clearBody {a : Byte} (h : s.noticeLaw) : (clearBody a s).1.noticeLaw := by
  simp only [Machine.clearBody]
  split
  · exact h
  · split
    · exact h.quarantineEnd.settle
    · exact h.updTarget
    · exact h

theorem State.noticeLaw.setParameterBody {i : Byte} {k : Param} {ps : Params} (h : s.noticeLaw) :
    (setParameterBody i k ps s).1.noticeLaw := by
  have hset : State.noticeLaw { s with params := ps } := h.of_fields ⟨rfl, rfl⟩
  refine h.ite ?_
  cases k with
  | agingLimit | maintenanceClass => exact hset.of_fields (by simp [State.actOn])
  | staleMultiple => exact hset.recheckAllStale
  | hangLimit => exact hset.retimeHang
  | busRate | addressRetries | lossLimit | faultRetry | maxLease | admitted => exact hset

theorem State.noticeLaw.busResetBody (h : s.noticeLaw) : (busResetBody s).1.noticeLaw := by
  simp only [Machine.busResetBody]
  split
  · exact h.beginAttempt
  · exact h

/-! ### The rows -/

theorem noticeLaw_next (h : (Host.Outcome.next z : Answer) = .next t) (hz : z.noticeLaw) : t.noticeLaw := next_inj h ▸ hz

/-- An event is taken, or it is ignored in reset (R174, R175). -/
theorem noticeLaw_event (h : s.event z = .next t) (hs : s.noticeLaw) (hz : z.noticeLaw) : t.noticeLaw :=
  noticeLaw_next h (hs.ite hz)

/-- Every host command keeps the law of the notice queues. -/
theorem noticeLaw_exec_header {c : Instr} (hc : headerPort c = some p) (hs : s.noticeLaw) (h : exec c s = .next t) :
    t.noticeLaw := by
  cases c <;> simp only [headerPort, reduceCtorEq] at hc
  case info | status | getParameter | mirrorFind | mirrorRead | targetQuery =>
    exact noticeLaw_next h (hs.command fun _ _ => hs)
  case attach => exact noticeLaw_next h (hs.command fun _ _ => hs.attachBody)
  case detach | evictPort => exact noticeLaw_next h (hs.command fun _ _ => hs.endSession.settle.ite hs)
  case repeatResponse => exact noticeLaw_next h (hs.shiftOut.ite hs)
  case submit =>
    simp only [exec, execSubmit] at h
    split at h
    · exact noticeLaw_next h (hs.command fun _ _ => hs.submitBody)
    · cases h
  case cancel => exact noticeLaw_next h (hs.command fun _ _ => hs.cancelBody)
  case fetch => exact noticeLaw_next h (hs.command fun _ _ => hs.fetchBody)
  case readNotice => exact noticeLaw_next h (hs.command fun _ ha => hs.readNoticeBody (attached_of_standing ha))
  case setNoticeMask q m =>
    obtain ⟨hqueue, -⟩ := hs q
    exact noticeLaw_next h (hs.command fun _ ha => hs.setNoticePort (attached_of_standing ha) hqueue)
  case lock => exact noticeLaw_next h (hs.command fun _ _ => hs.lockBody)
  case renew => exact noticeLaw_next h (hs.command fun _ _ => hs.renewBody)
  case unlock => exact noticeLaw_next h (hs.command fun _ _ => hs.unlockBody)
  case mirrorDefine => exact noticeLaw_next h (hs.command fun _ _ => hs.mirrorDefineBody)
  case mirrorDrop => exact noticeLaw_next h (hs.command fun _ _ => hs.mirrorDropBody)
  case declareTarget => exact noticeLaw_next h (hs.command fun _ _ => hs.declareBody)
  case removeTarget => exact noticeLaw_next h (hs.command fun _ _ => hs.removeBody)
  case clearQuarantine => exact noticeLaw_next h (hs.command fun _ _ => hs.clearBody)
  case forceUnlock => exact noticeLaw_next h (hs.command fun _ _ => hs.forceUnlockBody)
  case setParameter => exact noticeLaw_next h (hs.command fun _ _ => hs.setParameterBody)
  case busReset => exact noticeLaw_next h (hs.command fun _ _ => hs.busResetBody)
  case resetPart => exact noticeLaw_next h (hs.command fun _ _ => hs.updPort fun _ ha => ha)
  case unknownCommand =>
    simp only [exec, execUnknownCommand] at h
    split at h
    · cases h
    · exact noticeLaw_next h (hs.respond.ite hs)
  case checkError => exact noticeLaw_next h (.ite (.updPort hs.shiftOut fun _ ha => ha) hs)

/-- Every frame event, reset, timer expiry and event of the field bus keeps the law of the notice queues. -/
theorem noticeLaw_exec_event {c : Instr} (hc : headerPort c = none) (hs : s.noticeLaw) (h : exec c s = .next t) :
    t.noticeLaw := by
  cases c <;> simp only [headerPort, reduceCtorEq] at hc
  case frameOpen | statusByteShiftedOut | frameAbandoned | ncsRiseInIdle =>
    exact noticeLaw_event h hs (.ite (.updPort hs fun _ ha => ha) hs)
  case frameEnd q =>
    exact noticeLaw_event h hs (.ite ((noticeLaw_takeResetPart s q _).ite (hs.updPort fun _ ha => ha)) hs)
  case resetPartTaken q l => exact noticeLaw_event h hs ((noticeLaw_takeResetPart s q l).ite hs)
  case powerOnReset | nrstLow => exact noticeLaw_next h (noticeLaw_enterReset s _)
  case powerOnResetEnd | nrstRelease =>
    exact noticeLaw_next h (.ite (.ite (hs.of_fields ⟨rfl, rfl⟩) (noticeLaw_leaveReset s _ _ _ _)) hs)
  case classAgingExpiry => exact noticeLaw_event h hs (hs.of_fields (by simp))
  case lockLeaseExpiry =>
    refine noticeLaw_event h hs ?_
    split
    · exact hs
    · exact hs.release.settle.ite hs
  case mirrorPollDue =>
    refine noticeLaw_event h hs ?_
    split
    · exact hs
    · split
      · exact hs
      · exact hs.pollTimerExpires.ite hs
  case staleLimitExpiry =>
    refine noticeLaw_event h hs ?_
    split
    · exact hs
    · exact hs.goStale.ite hs
  case probeDueExpiry =>
    refine noticeLaw_event h hs ?_
    split
    · exact hs
    · exact hs.updTarget.settle.ite hs
  case stretchTimeout =>
    refine noticeLaw_event h hs ?_
    split
    · exact hs.stretchExpires.ite hs
    · exact hs
  case hangTimerExpiry | nextRecoveryAttempt => exact noticeLaw_event h hs (hs.hangExpires.ite hs)
  case idleConfirmationExpiry => exact noticeLaw_event h hs (hs.reachFree.settle.ite hs)
  case faultRetryExpiry => exact noticeLaw_event h hs (hs.beginAttempt.ite hs)
  case transferCompletion =>
    refine noticeLaw_event h hs ?_
    split
    · exact hs
    · exact hs.endTransfer
  case arbitrationLoss =>
    refine noticeLaw_event h hs ?_
    split
    · exact hs
    · exact hs.loseTransfer.ite hs
  case start =>
    refine noticeLaw_event h hs ?_
    split
    · exact hs
    · exact hs.of_fields (by simp)
  case lineActivityBeforeStart =>
    refine noticeLaw_event h hs ?_
    split
    · exact hs
    · split <;> exact hs.loseTransfer
  case recoveryAttemptEnd => exact noticeLaw_event h hs (hs.endAttempt.ite hs)
  case foreignStart => exact noticeLaw_event h hs hs.observeStart
  case foreignStop => exact noticeLaw_event h hs hs.observeStop
  case lineActivity => exact noticeLaw_event h hs hs.observeChange
  case millisecondBoundary => exact noticeLaw_event h hs (hs.of_fields ⟨rfl, rfl⟩)
  case addressAttemptNack =>
    refine noticeLaw_event h hs ?_
    split
    · exact hs
    · exact hs.nackAddress
  case clockStretchStart =>
    refine noticeLaw_event h hs ?_
    split
    · exact hs
    · exact hs.setEngine
  case clockStretchEnd =>
    refine noticeLaw_event h hs ?_
    split
    · exact hs.setEngine.ite hs
    · exact hs

/-- Settles O55: every row reaches the queues by offers, readings, session ends and resets, and each of these keeps the law. -/
theorem stepsKeepTheNoticeLaw : Obligations.StepsKeepTheNoticeLaw := by
  intro s t hs h
  simp only [step] at h
  split at h
  · exact noticeLaw_next h hs
  · next c rest _ =>
    have hs : State.noticeLaw { s with pending := rest } := hs.of_fields ⟨rfl, rfl⟩
    cases hc : headerPort c with
    | none => exact noticeLaw_exec_event hc hs h
    | some p => exact noticeLaw_exec_header hc hs h

end Sys2Proof.Machine

/-! ## Headers and their bytes (O3, O4)

A header is a body, the code byte and its arguments, and a check byte. The first bytes of a body fix its length, so that no
proper part of a header completes one. -/

namespace Sys2Proof

/-- A two-byte field reads as it was written (R178). -/
@[simp] theorem Half.ofBytes_bytes (w : Half) : Half.ofBytes (w.extractLsb' 8 8) (w.extractLsb' 0 8) = w :=
  (BitVec.extractLsb'_append_extractLsb'_eq_extractLsb' (by rfl)).trans BitVec.extractLsb'_eq_self

/-! ### The length of a body (R150, R181) -/

theorem bodyLength_of_not_submit {code : Byte} (h : code ≠ 0x10#8) (args : List Byte) :
    bodyLength (code :: args) = some (1 + argumentCount code) := by simp [bodyLength, h]

theorem bodyLength_submit (control addr lengths : Byte) (rest : List Byte) :
    bodyLength (0x10#8 :: control :: addr :: lengths :: rest)
      = some (5 + SubmitArgs.indexLength ⟨control, addr, lengths, 0#8, []⟩
          + SubmitArgs.writeLength ⟨control, addr, lengths, 0#8, []⟩) := rfl

/-- A list of bytes is a whole body: its bytes state its length, and no part of it states another. -/
def IsBody (body : List Byte) : Prop :=
  (∀ rest, bodyLength (body ++ rest) = some body.length)
    ∧ ∀ k, bodyLength (body.take k) = none ∨ bodyLength (body.take k) = some body.length

theorem isBody_of_count {code : Byte} {args : List Byte} (h : code ≠ 0x10#8) (hn : args.length = argumentCount code) :
    IsBody (code :: args) := by
  have hlen : bodyLength (code :: args) = some (code :: args).length := by
    rw [bodyLength_of_not_submit h, List.length_cons, hn, Nat.add_comm]
  refine ⟨fun rest => ?_, fun k => ?_⟩
  · rw [List.cons_append, bodyLength_of_not_submit h, ← bodyLength_of_not_submit h args, hlen]
  · cases k with
    | zero => exact .inl rfl
    | succ k => exact .inr (by rw [List.take_succ_cons, bodyLength_of_not_submit h, ← bodyLength_of_not_submit h args, hlen])

theorem isBody_submit {a : SubmitArgs} (h : a.tail.length = a.indexLength + a.writeLength) :
    IsBody ([0x10#8, a.control, a.addr, a.lengths, a.readLen] ++ a.tail) := by
  have hlen (rest : List Byte) : bodyLength (0x10#8 :: a.control :: a.addr :: a.lengths :: rest)
      = some ([0x10#8, a.control, a.addr, a.lengths, a.readLen] ++ a.tail).length := by
    rw [bodyLength_submit]
    simp only [List.cons_append, List.nil_append, List.length_cons, h, Option.some.injEq]
    change 5 + a.indexLength + a.writeLength = _
    omega
  refine ⟨fun rest => hlen _, fun k => ?_⟩
  match k with
  | 0 | 1 | 2 | 3 => exact .inl rfl
  | k + 4 => exact .inr (hlen _)

/-! ### Reading a header (R147, R150, R151) -/

/-- A body with its check byte reads as the command of the body, whatever bytes follow (R147, R151). -/
theorem decodeHeader_append {body : List Byte} (h : IsBody body) (p : Port) (extra : List Byte) :
    decodeHeader p (body ++ [crc8 body] ++ extra) = decodeBody p body := by
  rw [List.append_assoc]
  simp [decodeHeader, h.1]

/-- No proper part of a header completes one (R150). -/
theorem decodeHeader_take {body : List Byte} (h : IsBody body) (p : Port) {k : Nat}
    (hk : k < (body ++ [crc8 body]).length) : decodeHeader p ((body ++ [crc8 body]).take k) = none := by
  have hle : k ≤ body.length := by
    rw [List.length_append, List.length_singleton] at hk
    omega
  rw [List.take_append_of_le_length hle]
  rcases h.2 k with hnone | hsome
  · simp [decodeHeader, hnone]
  · simp [decodeHeader, hsome, List.drop_eq_nil_of_le (List.length_take_le' k body)]

/-- A header whose check byte disagrees is a failed check (R151). -/
theorem decodeHeader_checkError {p : Port} {bytes : List Byte} {n : Nat} {c : Byte} (hn : bodyLength bytes = some n)
    (hc : bytes[n]? = some c) (hne : c ≠ crc8 (bytes.take n)) : decodeHeader p bytes = some (.checkError p) := by
  obtain ⟨hlt, rfl⟩ := List.getElem?_eq_some_iff.1 hc
  simp only [decodeHeader, hn, List.drop_eq_getElem_cons hlt, if_neg hne]

/-! ### Codes that name no command (R150) -/

/-- A code that names no command differs from every command code, SUBMIT's among them, and takes no arguments. -/
theorem argumentCount_unknown {code : Byte} (h : commandCodes.contains code = false) :
    code ≠ 0x10#8 ∧ argumentCount code = 0 := by
  revert code
  decide +kernel

theorem decodeBody_unknown (p : Port) {code : Byte} (h : commandCodes.contains code = false) :
    decodeBody p [code] = some (.unknownCommand p code) := by
  have hcode (k : Nat) (hk : code.toNat = k) : k ∉ commandCodes.map BitVec.toNat := by
    intro hmem
    obtain ⟨b, hb, rfl⟩ := List.mem_map.1 hmem
    rw [BitVec.eq_of_toNat_eq hk, List.contains_iff_mem.2 hb] at h
    cases h
  simp only [decodeBody]
  split
  case h_28 => rfl
  all_goals exact absurd (hcode _ ‹_›) (by decide)

theorem isBody_unknown {code : Byte} (h : commandCodes.contains code = false) : IsBody [code] :=
  isBody_of_count (argumentCount_unknown h).1 (argumentCount_unknown h).2.symm

/-! ### What a command's bytes are and read as -/

/-- The bytes of a command are a whole body that reads as the command (Table 10-3). -/
theorem decodeBody_encodeBody {i : Instr} {p : Port} {body : List Byte} (hw : i.wellFormed = true)
    (hp : headerPort i = some p) (hb : encodeBody i = some body) : IsBody body ∧ decodeBody p body = some i := by
  cases i <;> simp only [headerPort, encodeBody, reduceCtorEq, Option.some.injEq] at hp hb <;> subst hp hb
  case submit a =>
    simp only [Instr.wellFormed, beq_iff_eq] at hw
    exact ⟨isBody_submit hw, rfl⟩
  case unknownCommand code =>
    simp only [Instr.wellFormed, Bool.not_eq_true'] at hw
    exact ⟨isBody_unknown hw, decodeBody_unknown _ hw⟩
  case cancel | fetch | lock | mirrorDefine | declareTarget | setParameter =>
    exact ⟨isBody_of_count (by decide) rfl, by simp [decodeBody, Half.bytes, KeyArgs.bytes]⟩
  all_goals exact ⟨isBody_of_count (by decide) rfl, rfl⟩

end Sys2Proof

namespace Sys2Proof.Machine

open Sys2Proof

/-- Settles O3, by the length that the first bytes of a body state. -/
theorem headersReadAsTheirCommand : Obligations.HeadersReadAsTheirCommand := by
  intro i p bytes extra hw hp hbytes
  obtain ⟨body, hbody, rfl⟩ := Option.map_eq_some_iff.1 hbytes
  obtain ⟨hlen, hread⟩ := decodeBody_encodeBody hw hp hbody
  exact ⟨(decodeHeader_append hlen p extra).trans hread, fun k hk => decodeHeader_take hlen p hk⟩

theorem exec_checkError {s : State} {p : Port} (h : s.takesHeader p = true) : exec (.checkError p) s
    = .next ((s.shiftOut p (Reply.plain .checkError).bytes).updPort p fun h => { h with checkError := true }) :=
  congrArg Host.Outcome.next (if_pos h)

theorem exec_unknownCommand {s : State} {p : Port} {code : Byte} (h : s.takesHeader p = true)
    (hc : commandCodes.contains code = false) :
    exec (.unknownCommand p code) s = .next (s.respond p ⟨.unknownCommand, []⟩) :=
  (if_neg (Bool.eq_false_iff.1 hc)).trans (congrArg Host.Outcome.next (if_pos h))

/-- Settles O4: the two readings and the two answers. -/
theorem headersThatExecuteNothing : Obligations.HeadersThatExecuteNothing := by
  refine ⟨fun p bytes n c => decodeHeader_checkError, fun s p h => ⟨_, exec_checkError h, rfl, fun q hq => ?_, ?_⟩,
    fun p code extra hc => ?_, fun s p code => exec_unknownCommand⟩
  · simp [State.shiftOut, hq]
  · simp only [port_updPort, State.shiftOut, if_true]
    rfl
  · exact (decodeHeader_append (isBody_unknown hc) p extra).trans (decodeBody_unknown p hc)

end Sys2Proof.Machine

/-! ## What every header and every event comes to (O2, O9, O10)

A header that executes is answered through the common check stage with what its command's body gives; an event is taken by a
device that is not held in reset. Both leave the queue of commands as it is. -/

namespace Sys2Proof.Machine

open Sys2Proof

variable {s t : State} {p : Port} {c : Instr}

/-! ### What a command's body may do -/

/-- A reply within the sizes of a response: at most 34 data bytes, and none with a refusal (R153, Table 10-6). -/
def Reply.fits (r : Reply) : Prop := r.data.length ≤ 34 ∧ (0x80#8 ≤ r.code.byte → r.data = [])

theorem Reply.fits.plain (code : Code) : (Reply.plain code).fits := ⟨Nat.zero_le _, fun _ => rfl⟩

theorem Reply.fits.answer {code : Code} {data : List Byte} (hcode : ¬ 0x80#8 ≤ code.byte) (h : data.length ≤ 34) :
    Reply.fits ⟨code, data⟩ := ⟨h, fun hle => absurd hle hcode⟩

theorem Reply.fits.done {data : List Byte} (h : data.length ≤ 34) : Reply.fits ⟨.done, data⟩ :=
  .answer (by decide) h

/-- What a command that arrives on a port leaves alone, whatever its own work: the queue of commands, and the frames of the
other ports (R161). Its reply has the sizes of a response. -/
structure Acts (s : State) (p : Port) (z : State × Reply) : Prop where
  pending : z.1.pending = s.pending
  others : ∀ q, q ≠ p → z.1.port q = { s.port q with attached := (z.1.port q).attached, buffer := (z.1.port q).buffer }
  fits : s.sizeLaw → z.2.fits

theorem Acts.of_frame {z : State} {r : Reply} (h : z.pending = s.pending ∧ z.ports = s.ports) (hr : r.fits) :
    Acts s p (z, r) where
  pending := h.1
  others q _ := by rw [port_of_ports h.2]
  fits _ := hr

theorem Acts.reports {r : Reply} (h : r.fits) : Acts s p (s, r) := .of_frame ⟨rfl, rfl⟩ h

theorem Acts.answers (code : Code) : Acts s p (s, Reply.plain code) := .reports (.plain code)

/-- A change of the port's own record touches no other port's frame. -/
theorem Acts.ofOwnPort {f : HostPort → HostPort} {r : Reply} (hr : r.fits) : Acts s p (s.updPort p f, r) where
  pending := rfl
  others q hq := by rw [port_updPort, if_neg hq]
  fits _ := hr

/-! ### The ends of sessions (R159, R160, R172) -/

theorem port_endSession (s : State) (p q : Port) :
    (s.endSession p).port q = if q = p then { s.port p with attached := false, buffer := none } else s.port q := by
  have hblocks : ((((s.endSlots p).endLocks p).endSponsorships p).setNoticePort p NoticePort.fresh).port = s.port :=
    port_of_ports (by simp)
  rw [State.endSession, port_updPort, hblocks]

/-- The end of a session leaves every frame (R160). -/
theorem frames_endSession (s : State) (p q : Port) : (s.endSession p).port q
    = { s.port q with attached := ((s.endSession p).port q).attached, buffer := ((s.endSession p).port q).buffer } := by
  rw [port_endSession]
  split
  · next h => rw [h]
  · rfl

theorem Acts.endSession {q : Port} {r : Reply} (hr : r.fits) :
    Acts s p (if (s.port q).attached then (s.endSession q).settle else s, r) := by
  split
  · exact ⟨by simp, fun x _ => by simpa [State.port] using frames_endSession s q x, fun _ => hr⟩
  · exact .reports hr

theorem Acts.attachBody (s : State) (p : Port) : Acts s p (attachBody p s) := by
  simp only [Machine.attachBody]
  split
  · split
    · refine ⟨by simp, fun q hq => ?_, fun _ => .done (by simp)⟩
      have hport : (((s.endSession p).openSession p).settle).port q = s.port q := by
        rw [port_of_ports (b := (s.endSession p).openSession p) (by simp), State.openSession, port_updPort, if_neg hq,
          port_endSession, if_neg hq]
      rw [hport]
    · exact .ofOwnPort (.done (by simp))
  · exact .answers _

/-! ### The bodies -/

theorem Acts.submitBody (s : State) (p : Port) (d : Descriptor) : Acts s p (submitBody p d s) := by
  simp only [Machine.submitBody]
  split
  · exact .answers _
  · split
    · exact .answers _
    · exact .of_frame (by simp) (.answer (by decide) (by simp [Half.bytes]))

theorem Acts.cancelBody (s : State) (p : Port) (ticket : Half) : Acts s p (cancelBody p ticket s) := by
  simp only [Machine.cancelBody]
  split
  · exact .answers _
  · split
    · exact .of_frame (by simp) (.plain _)
    · exact .of_frame (by simp) (.plain _)
    · exact .answers _

/-- The result record of a DONE slot has at most 34 bytes (Tables 1-5 and 10-8). -/
theorem record_length {n : SlotId} {r : Request} {res : Result} (hs : s.sizeLaw) (hr : s.request n = some r)
    (hd : r.state = .done res) : res.record.length ≤ 34 := by
  obtain ⟨hrequests, -, -⟩ := hs
  obtain ⟨-, -, hresult⟩ := hrequests n r hr
  have hdata : res.data.length ≤ 32 := (hresult res hd).1
  simp only [Result.record, List.cons_append, List.nil_append, List.length_cons]
  omega

theorem Acts.fetchBody (s : State) (p : Port) (ticket : Half) (keep : Bool) : Acts s p (fetchBody p ticket keep s) := by
  simp only [Machine.fetchBody]
  split
  · exact .answers _
  · next n r hn =>
    split
    · next res hd =>
      have hframe : (if keep then s else s.freeSlotOf n).pending = s.pending
          ∧ (if keep then s else s.freeSlotOf n).ports = s.ports := by split <;> simp
      exact ⟨hframe.1, fun q _ => by rw [port_of_ports hframe.2],
        fun hs => .done (record_length hs (request_of_ticketSlot hn) hd)⟩
    · exact .reports (.answer (by decide) (by decide))
    · exact .reports (.answer (by decide) (by decide))

theorem length_noticeRecord (n : Notice) : n.record.length = 5 := by cases n <;> rfl

theorem Acts.readNoticeBody (s : State) (p : Port) : Acts s p (readNoticeBody p s) := by
  simp only [Machine.readNoticeBody]
  split
  · exact .answers _
  · exact .of_frame (by simp) (.done (by simp [length_noticeRecord]))

theorem fits_grantedReply (lease : Nat) : (grantedReply lease).fits :=
  .answer (by decide) (by simp [Half.bytes])

theorem Acts.lockBody (s : State) (p : Port) (a : Byte) (n : Nat) (w : Bool) : Acts s p (lockBody p a n w s) := by
  simp only [Machine.lockBody]
  split
  · exact .answers _
  · split
    · exact .answers _
    · split
      · exact .answers _
      · split
        · exact .answers _
        · split
          · exact .of_frame (by simp) (fits_grantedReply _)
          · simp only [State.joinOrReport]
            split
            · exact .of_frame (by simp) (.answer (by decide) (by simp))
            · exact .answers _

theorem Acts.renewBody (s : State) (p : Port) (a : Byte) : Acts s p (renewBody p a s) := by
  simp only [Machine.renewBody]
  split
  · exact .answers _
  · split
    · exact .answers _
    · split
      · exact .of_frame (by simp) (fits_grantedReply _)
      · exact .answers _

theorem Acts.unlockBody (s : State) (p : Port) (a : Byte) : Acts s p (unlockBody p a s) := by
  simp only [Machine.unlockBody]
  split
  · exact .answers _
  · split
    · exact .of_frame (by simp) (.plain _)
    · split
      · exact .of_frame (by simp) (.plain _)
      · exact .answers _

theorem Acts.forceUnlockBody (s : State) (p : Port) (a : Byte) : Acts s p (forceUnlockBody a s) := by
  simp only [Machine.forceUnlockBody]
  split
  · exact .answers _
  · split
    · exact .reports (.done (by simp))
    · exact .of_frame (by simp) (.done (by simp))

theorem fits_entryReply (e : EntryId) : (entryReply e).fits := .done (by simp)

theorem Acts.mirrorDefineBody (s : State) (p : Port) (k : Key) (x : Sponsor) : Acts s p (mirrorDefineBody p k x s) := by
  simp only [Machine.mirrorDefineBody]
  split
  · exact .answers _
  · split
    · exact .answers _
    · split
      · exact .of_frame (by simp) (fits_entryReply _)
      · split
        · exact .answers _
        · exact .of_frame (by simp) (fits_entryReply _)

theorem Acts.mirrorDropBody (s : State) (p : Port) (e : EntryId) : Acts s p (mirrorDropBody p e s) := by
  simp only [Machine.mirrorDropBody]
  split
  · exact .answers _
  · split
    · exact .answers _
    · exact .of_frame (by simp) (.plain _)

theorem Acts.mirrorFind (s : State) (p : Port) (k : Key) : Acts s p (s, s.mirrorFindReply p k) := by
  simp only [State.mirrorFindReply]
  split
  · exact .answers _
  · split
    · exact .answers _
    · split
      · exact .reports (fits_entryReply _)
      · exact .answers _

/-- The record of a mirror entry has at most 23 bytes (Tables 3-3 and 10-11). -/
theorem mirrorRecord_length {e : EntryId} {u : MirrorUse} (hs : s.sizeLaw) (hu : s.entryUse e = some u) :
    (s.mirrorRecord u).length ≤ 23 := by
  obtain ⟨-, hentries, -⟩ := hs
  obtain ⟨-, hvalue⟩ := hentries e u hu
  simp only [State.mirrorRecord, Half.bytes, List.cons_append, List.nil_append, List.length_cons]
  split
  · next v hv =>
    have hlen : v.bytes.length ≤ 16 := hvalue v hv
    omega
  · decide

theorem Acts.mirrorRead (s : State) (p : Port) (e : EntryId) : Acts s p (s, s.mirrorReadReply p e) := by
  simp only [State.mirrorReadReply]
  split
  · exact .answers _
  · next u hu =>
    split
    · exact ⟨rfl, fun _ _ => rfl, fun hs => .done (Nat.le_trans (mirrorRecord_length hs hu) (by decide))⟩
    · exact .answers _

theorem Acts.targetQuery (s : State) (p : Port) (a : Byte) : Acts s p (s, s.targetQueryReply p a) := by
  simp only [State.targetQueryReply]
  split
  · exact .answers _
  · exact .reports (.done (by simp [Target.queryRecord]))

theorem Acts.declareBody (s : State) (p : Port) (d : Declaration) : Acts s p (declareBody d s) := by
  simp only [Machine.declareBody]
  split
  · split
    · exact .answers _
    · exact .of_frame (by simp) (.done (by simp))
  · split
    · exact .answers _
    · exact .of_frame (by simp) (.done (by simp))

theorem Acts.removeBody (s : State) (p : Port) (a : Byte) : Acts s p (removeBody a s) := by
  simp only [Machine.removeBody]
  split
  · exact .answers _
  · split
    · exact .answers _
    · exact .of_frame (by simp) (.plain _)

theorem Acts.clearBody (s : State) (p : Port) (a : Byte) : Acts s p (clearBody a s) := by
  simp only [Machine.clearBody]
  split
  · exact .answers _
  · split
    · exact .of_frame (by simp) (.plain _)
    · exact .of_frame (by simp) (.plain _)
    · exact .answers _

theorem Acts.setParameterBody (s : State) (p : Port) (ident : Byte) (k : Param) (ps : Params) :
    Acts s p (setParameterBody ident k ps s) := by
  refine .of_frame ?_ (.done (by simp [Half.bytes]))
  split
  · exact ⟨rfl, rfl⟩
  · cases k <;> simp [State.actOn]

theorem Acts.busResetBody (s : State) (p : Port) : Acts s p (busResetBody s) := by
  simp only [Machine.busResetBody]
  split
  · exact .of_frame (by simp) (.plain _)
  · exact .answers _

theorem infoRecord_length (s : State) : s.infoRecord.length = 10 := by
  have hcause : s.cause.record.length = 2 := by cases s.cause <;> rfl
  simp [State.infoRecord, hcause, Config.infoFixed]

/-! ### A header comes to its command's body, checked and answered (R152, R154) -/

/-- The standing that a command needs of its port (Table 8-4). -/
def standingOf (c : Instr) : Standing :=
  if supervisorOnly c then .supervisor else if needsSession c then .session else .any

/-- A command taken through the common check stage, with what its body gives where its arguments are in range. -/
def ComesTo (c : Instr) (p : Port) (s : State) : Prop :=
  ∃ taken : Option (State × Reply), (∀ z, taken = some z → Acts s p z)
    ∧ exec c s = .next (s.command p (standingOf c) taken fun z _ => z)

theorem command_eq_map {α : Type} (s : State) (p : Port) (need : Standing) (args : Option α)
    (body : α → State → State × Reply) :
    s.command p need args body = s.command p need (args.map fun a => body a s) fun z _ => z := by
  cases args <;> rfl

theorem ComesTo.of_command {α : Type} {args : Option α} {body : α → State → State × Reply}
    (h : exec c s = .next (s.command p (standingOf c) args body)) (hb : ∀ a, Acts s p (body a s)) : ComesTo c p s := by
  refine ⟨args.map fun a => body a s, fun z hz => ?_, h.trans (congrArg _ (command_eq_map _ _ _ _ _))⟩
  obtain ⟨a, -, rfl⟩ := Option.map_eq_some_iff.1 hz
  exact hb a

/-- Every header but those that execute nothing and REPEAT RESPONSE comes to its command's body. -/
theorem comesTo_header (hc : headerPort c = some p) (hw : c.wellFormed = true) (hr : c ≠ .repeatResponse p)
    (hk : c ≠ .checkError p) (hu : ∀ code, c ≠ .unknownCommand p code) (s : State) : ComesTo c p s := by
  cases c <;> simp only [headerPort, reduceCtorEq, Option.some.injEq] at hc <;> subst hc
  case info => exact .of_command rfl fun _ => .reports (.done (by simp [infoRecord_length]))
  case status => exact .of_command rfl fun _ => .reports (.done (by simp [State.statusRecord, State.uptimeBytes]))
  case attach => exact .of_command rfl fun _ => .attachBody s _
  case detach | evictPort => exact .of_command rfl fun _ => .endSession (.plain _)
  case repeatResponse => exact absurd rfl hr
  case getParameter => exact .of_command rfl fun _ => .reports (.done (by simp [Half.bytes]))
  case submit args =>
    exact .of_command (if_pos (beq_iff_eq.1 hw)) fun d => .submitBody s _ d
  case cancel => exact .of_command rfl fun _ => .cancelBody s _ _
  case fetch => exact .of_command rfl fun _ => .fetchBody s _ _ _
  case readNotice => exact .of_command rfl fun _ => .readNoticeBody s _
  case setNoticeMask => exact .of_command rfl fun _ => .of_frame (by simp) (.done (by simp))
  case lock => exact .of_command rfl fun _ => .lockBody s _ _ _ _
  case renew => exact .of_command rfl fun _ => .renewBody s _ _
  case unlock => exact .of_command rfl fun _ => .unlockBody s _ _
  case mirrorDefine => exact .of_command rfl fun _ => .mirrorDefineBody s _ _ _
  case mirrorDrop => exact .of_command rfl fun _ => .mirrorDropBody s _ _
  case mirrorFind => exact .of_command rfl fun _ => .mirrorFind s _ _
  case mirrorRead => exact .of_command rfl fun _ => .mirrorRead s _ _
  case targetQuery => exact .of_command rfl fun _ => .targetQuery s _ _
  case declareTarget => exact .of_command rfl fun _ => .declareBody s _ _
  case removeTarget => exact .of_command rfl fun _ => .removeBody s _ _
  case clearQuarantine => exact .of_command rfl fun _ => .clearBody s _ _
  case forceUnlock => exact .of_command rfl fun _ => .forceUnlockBody s _ _
  case setParameter => exact .of_command rfl fun _ => .setParameterBody s _ _ _ _
  case busReset => exact .of_command rfl fun _ => .busResetBody s _
  case resetPart => exact .of_command rfl fun _ => .ofOwnPort (.plain _)
  case unknownCommand code => exact absurd rfl (hu code)
  case checkError => exact absurd rfl hk

theorem unknown_of_wellFormed {code : Byte} (hw : Instr.wellFormed (.unknownCommand p code) = true) :
    commandCodes.contains code = false := by
  simpa only [Instr.wellFormed, Bool.not_eq_true'] using hw

/-- Outside an open HEADER a header does nothing (R147, R174, R175). -/
theorem header_ignored (hc : headerPort c = some p) (hw : c.wellFormed = true) (h : s.takesHeader p = false) :
    exec c s = .next s := by
  have hclosed : ¬ s.takesHeader p = true := by simp [h]
  by_cases hr : c = .repeatResponse p
  · subst hr
    exact congrArg Host.Outcome.next (if_neg hclosed)
  by_cases hk : c = .checkError p
  · subst hk
    exact congrArg Host.Outcome.next (if_neg hclosed)
  by_cases hu : ∃ code, c = .unknownCommand p code
  · obtain ⟨code, rfl⟩ := hu
    exact (if_neg (Bool.eq_false_iff.1 (unknown_of_wellFormed hw))).trans (congrArg Host.Outcome.next (if_neg hclosed))
  obtain ⟨_, -, hexec⟩ := comesTo_header hc hw hr hk (fun code h => hu ⟨code, h⟩) s
  rw [hexec, command_ignored h]

/-- In an open HEADER every header but REPEAT RESPONSE and a failed check is answered, with its response stored (R152). -/
theorem header_answered (hc : headerPort c = some p) (hw : c.wellFormed = true) (h : s.takesHeader p = true)
    (hr : c ≠ .repeatResponse p) (hk : c ≠ .checkError p) :
    ∃ z, Acts s p z ∧ exec c s = .next (z.1.respond p z.2) := by
  by_cases hu : ∃ code, c = .unknownCommand p code
  · obtain ⟨code, rfl⟩ := hu
    exact ⟨_, .answers .unknownCommand, exec_unknownCommand h (unknown_of_wellFormed hw)⟩
  obtain ⟨taken, hacts, hexec⟩ := comesTo_header hc hw hr hk (fun code h => hu ⟨code, h⟩) s
  cases hstanding : s.standingRefusal (standingOf c) p with
  | some code => exact ⟨_, .answers code, hexec.trans (congrArg _ (command_refused h hstanding))⟩
  | none =>
    cases taken with
    | none => exact ⟨_, .answers .badArgument, hexec.trans (congrArg _ (command_bad h hstanding rfl))⟩
    | some z => exact ⟨z, hacts z rfl, hexec.trans (congrArg _ (command_taken h hstanding rfl))⟩

/-! ### An event is taken outside reset (R174, R175) -/

/-- The events that begin and end a power-on reset or a reset by nRST (R174, R175). -/
def movesReset : Instr → Bool
  | .powerOnReset | .nrstLow | .powerOnResetEnd _ _ _ | .nrstRelease _ _ _ => true
  | _ => false

theorem movesReset_iff : movesReset c = true ↔ c = .powerOnReset ∨ c = .nrstLow
    ∨ (∃ a l n, c = .powerOnResetEnd a l n) ∨ ∃ a l n, c = .nrstRelease a l n := by
  cases c <;> simp [movesReset]

theorem pending_readLines (s : State) : s.readLines.pending = s.pending := by
  simp only [State.readLines]
  split <;> rfl

theorem pending_leaveReset (s : State) (straps : BitVec 2) (k : ResetCause) (l : Lines) (sel : PortSet) :
    (s.leaveReset straps k l sel).pending = s.pending := pending_readLines _

theorem pending_takeResetPart (s : State) (p : Port) (l : Lines) : (s.takeResetPart p l).pending = s.pending :=
  pending_readLines _

/-- What begins and ends a reset leaves the queue of commands. -/
theorem reset_taken (hm : movesReset c = true) (s : State) : ∃ z, exec c s = .next z ∧ z.pending = s.pending := by
  rcases movesReset_iff.1 hm with rfl | rfl | ⟨a, l, n, rfl⟩ | ⟨a, l, n, rfl⟩
  · exact ⟨_, rfl, rfl⟩
  · exact ⟨_, rfl, rfl⟩
  · refine ⟨_, rfl, ?_⟩
    split
    · split
      · rfl
      · exact pending_leaveReset s _ _ _ _
    · rfl
  · refine ⟨_, rfl, ?_⟩
    split
    · split
      · rfl
      · exact pending_leaveReset s _ _ _ _
    · rfl

theorem pending_pollTimerExpires (s : State) (e : EntryId) (u : MirrorUse) (x : Timer) :
    (s.pollTimerExpires e u x).pending = s.pending := by
  simp only [State.pollTimerExpires]
  (repeat' split) <;> simp

/-- Every other event is taken unless the device is held in reset, and leaves the queue of commands. -/
theorem event_comesTo (hc : headerPort c = none) (hm : movesReset c = false) (s : State) :
    ∃ z, exec c s = s.event z ∧ z.pending = s.pending := by
  cases c <;> simp only [headerPort, movesReset, reduceCtorEq] at hc hm
  all_goals refine ⟨_, rfl, ?_⟩
  case frameEnd =>
    split
    · split
      · exact pending_takeResetPart s _ _
      · rfl
    · rfl
  case resetPartTaken =>
    split
    · exact pending_takeResetPart s _ _
    · rfl
  case mirrorPollDue =>
    (repeat' split) <;> simp [pending_pollTimerExpires]
  -- Every other event is put together of shared operations, whose frames keep the queue.
  all_goals (repeat' split) <;> simp

/-! ### Every command is answered (O2) -/

/-- A term that is no header is refused (R150, R181). -/
theorem exec_illFormed (hw : c.wellFormed = false) (s : State) : exec c s = .refused .illFormed := by
  cases c <;> simp only [Instr.wellFormed, Bool.true_eq_false, Bool.not_eq_false'] at hw
  case submit => exact if_neg (by simpa using hw)
  case unknownCommand => exact if_pos hw

theorem wellFormed_of_next (h : exec c s = .next t) : c.wellFormed = true := by
  cases hw : c.wellFormed with
  | true => rfl
  | false => simp [exec_illFormed hw] at h

/-- Every header that a host can send is answered, and leaves the queue of commands. -/
theorem header_next (hc : headerPort c = some p) (hw : c.wellFormed = true) (s : State) :
    ∃ t, exec c s = .next t ∧ t.pending = s.pending := by
  cases h : s.takesHeader p with
  | false => exact ⟨s, header_ignored hc hw h, rfl⟩
  | true =>
    by_cases hr : c = .repeatResponse p
    · subst hr
      exact ⟨_, congrArg Host.Outcome.next (if_pos h), by simp⟩
    by_cases hk : c = .checkError p
    · subst hk
      exact ⟨_, exec_checkError h, by simp⟩
    obtain ⟨z, hacts, hexec⟩ := header_answered hc hw h hr hk
    exact ⟨_, hexec, by simp [hacts.pending]⟩

/-- Every event is answered, and leaves the queue of commands. -/
theorem event_next (hc : headerPort c = none) (s : State) : ∃ t, exec c s = .next t ∧ t.pending = s.pending := by
  cases hm : movesReset c with
  | true => exact reset_taken hm s
  | false =>
    obtain ⟨z, hexec, hz⟩ := event_comesTo hc hm s
    refine ⟨_, hexec, ?_⟩
    split
    · rfl
    · exact hz

/-- Settles O2, for the headers and for the events. -/
theorem everyCommandIsAnswered : Obligations.EveryCommandIsAnswered := by
  refine fun c s => ⟨fun hw => ?_, fun hw => exec_illFormed hw s⟩
  cases hc : headerPort c with
  | none => exact event_next hc s
  | some p => exact header_next hc hw s

/-! ### What the device ignores (O9) -/

/-- Settles O9: in reset no frame takes a header and no event is taken, and a frame that is not open in HEADER takes none. -/
theorem whatTheDeviceIgnores : Obligations.WhatTheDeviceIgnores := by
  refine ⟨fun c s hreset hw hon hlow hend hrelease => ?_, fun c s p hc hw hframe => ?_⟩
  · cases hc : headerPort c with
    | some p => exact header_ignored hc hw (by simp [State.takesHeader, hreset])
    | none =>
      have hm : movesReset c = false := by
        rw [Bool.eq_false_iff]
        intro hm
        rcases movesReset_iff.1 hm with h | h | ⟨a, l, n, h⟩ | ⟨a, l, n, h⟩
        · exact hon h
        · exact hlow h
        · exact hend a l n h
        · exact hrelease a l n h
      obtain ⟨z, hexec, -⟩ := event_comesTo hc hm s
      rw [hexec, State.event, if_pos hreset]
  · exact header_ignored hc hw (by simp [State.takesHeader, hframe])

/-! ### The standing of the port (O10) -/

/-- A command that needs a standing is no header that executes nothing, and no REPEAT RESPONSE. -/
theorem comesTo_of_standing (hc : headerPort c = some p) (hw : c.wellFormed = true) (hn : needsSession c = true)
    (s : State) : ComesTo c p s := by
  refine comesTo_header hc hw ?_ ?_ (fun code => ?_) s
  all_goals
    rintro rfl
    cases hn

theorem needsSession_of_supervisorOnly (h : supervisorOnly c = true) : needsSession c = true := by
  simp only [needsSession]
  split <;> simp [h]

/-- The standing refusal that meets a command is its answer, and nothing changes (R154). -/
theorem exec_refused {code : Code} (hc : headerPort c = some p) (hw : c.wellFormed = true) (hn : needsSession c = true)
    (h : s.takesHeader p = true) (hr : s.standingRefusal (standingOf c) p = some code) :
    exec c s = .next (s.respond p ⟨code, []⟩) := by
  obtain ⟨_, -, hexec⟩ := comesTo_of_standing hc hw hn s
  rw [hexec, command_refused h hr]

theorem notSupervisor_refused (hc : supervisorOnly c = true) (hs : s.supervisor ≠ p) :
    s.standingRefusal (standingOf c) p = some .notSupervisor := by
  simp [standingOf, hc, State.standingRefusal, hs]

theorem notAttached_refused (hn : needsSession c = true) (hs : supervisorOnly c = true → s.supervisor = p)
    (ha : (s.port p).attached = false) : s.standingRefusal (standingOf c) p = some .notAttached := by
  cases hc : supervisorOnly c with
  | true => simp [standingOf, hc, State.standingRefusal, hs hc, ha]
  | false => simp [standingOf, hc, hn, State.standingRefusal, ha]

/-- Settles O10, refusal by refusal. -/
theorem standingIsCheckedInOrder : Obligations.StandingIsCheckedInOrder := fun _ _ _ hc hw h =>
  ⟨fun honly hs => exec_refused hc hw (needsSession_of_supervisorOnly honly) h (notSupervisor_refused honly hs),
    fun hn hs ha => exec_refused hc hw hn h (notAttached_refused hn hs ha)⟩

end Sys2Proof.Machine

/-! ## Responses (O7, O8, O13)

A response stands in the record of its port alone: formed, stored unless it repeats one or tells of a failed check, and shown
byte by byte behind the turnaround byte. -/

namespace Sys2Proof.Machine

open Sys2Proof

variable {s t : State} {p : Port} {c : Instr}

@[simp] theorem port_respond (s : State) (p q : Port) (r : Reply) : (s.respond p r).port q
    = if q = p then { s.port p with frame := .response, response := some r.bytes, buffer := some r.bytes } else s.port q :=
  port_updPort s p q _

@[simp] theorem port_shiftOut (s : State) (p q : Port) (b : List Byte) : (s.shiftOut p b).port q
    = if q = p then { s.port p with frame := .response, response := some b } else s.port q :=
  port_updPort s p q _

theorem exec_repeatResponse (h : s.takesHeader p = true) : exec (.repeatResponse p) s
    = .next (s.shiftOut p ((s.port p).buffer.getD (Reply.plain .empty).bytes)) :=
  congrArg Host.Outcome.next (if_pos h)

/-- Settles O7: the two headers that keep the buffer, and all others, which form their response and store it. -/
theorem responseIsFormedAndStored : Obligations.ResponseIsFormedAndStored := by
  intro c s p hw hc h
  by_cases hr : c = .repeatResponse p
  · subst hr
    exact ⟨_, (s.port p).buffer.getD (Reply.plain .empty).bytes, exec_repeatResponse h, by simp, by simp, fun _ => by simp,
      fun hne => absurd rfl hne, fun q hq => by simp [hq]⟩
  by_cases hk : c = .checkError p
  · subst hk
    exact ⟨_, (Reply.plain .checkError).bytes, exec_checkError h, by simp, by simp, fun _ => by simp,
      fun _ hne => absurd rfl hne, fun q hq => by simp [hq]⟩
  obtain ⟨z, hacts, hexec⟩ := header_answered hc hw h hr hk
  exact ⟨_, z.2.bytes, hexec, by simp, by simp, fun hkeeps => (hkeeps.elim hr hk).elim, fun _ _ => by simp,
    fun q hq => by simpa [hq] using hacts.others q hq⟩

/-! ### The bytes of a response (R153, R179) -/

/-- A response that carries a reply within the sizes has the layout of R153 and is shown so. -/
theorem response_layout {r : Reply} (hfits : r.fits) (hframe : (t.port p).frame = .response)
    (hbytes : (t.port p).response = some r.bytes) :
    ∃ (l code : Byte) (data : List Byte), (t.port p).response = some (l :: code :: data ++ [crc8 (l :: code :: data)])
      ∧ l.toNat = 1 + data.length ∧ data.length ≤ 34 ∧ (0x80#8 ≤ code → data = [])
      ∧ ∀ k, t.sdo p k = some (((0x00#8 :: l :: code :: data ++ [crc8 (l :: code :: data)])[k]?).getD 0xFF#8) := by
  obtain ⟨hlen, hrefusal⟩ := hfits
  refine ⟨_, r.code.byte, r.data, hbytes, ?_, hlen, hrefusal, fun k => sdo_response hframe hbytes k⟩
  rw [BitVec.toNat_ofNat, Nat.mod_eq_of_lt]
  omega

/-- Settles O8: what a header is answered with fits a response, the failed check's answer among them. -/
theorem responseCountsItsBytes : Obligations.ResponseCountsItsBytes := by
  intro c s t p hsize hc h hr hexec
  by_cases hk : c = .checkError p
  · subst hk
    obtain rfl := next_inj ((exec_checkError h).symm.trans hexec)
    exact response_layout (.plain .checkError) (by simp) (by simp)
  · obtain ⟨z, hacts, hz⟩ := header_answered hc (wellFormed_of_next hexec) h hr hk
    obtain rfl := next_inj (hz.symm.trans hexec)
    exact response_layout (hacts.fits hsize) (by simp) (by simp)

/-- Settles O13, by what the last-response buffer holds. -/
theorem repeatResponseReturnsTheBuffer : Obligations.RepeatResponseReturnsTheBuffer := by
  intro s p h
  refine ⟨_, _, exec_repeatResponse h, rfl, sdo_response (by simp) (by simp), fun hempty => ?_, fun b hb => ?_⟩
  · rw [hempty]
    rfl
  · rw [hb]
    rfl

end Sys2Proof.Machine

/-! ## Frame events, the reports and ATTACH (O5, O6, O12, O15) -/

namespace Sys2Proof.Machine

open Sys2Proof

variable {s : State} {p : Port}

/-! ### The status byte (R148, Table 10-1) -/

/-- The bits of a byte that is put together of six flags and the fixed bit 1, as the status byte is (Table 10-1). -/
theorem statusBits (a n u f x k : Bool) :
    let b : Byte := flagBit a 7 ||| flagBit n 6 ||| flagBit u 5 ||| flagBit f 4 ||| flagBit x 3 ||| flagBit k 2 ||| 0x02#8
    b.getLsbD 7 = a ∧ b.getLsbD 6 = n ∧ b.getLsbD 5 = u ∧ b.getLsbD 4 = f ∧ b.getLsbD 3 = x ∧ b.getLsbD 2 = k
      ∧ b.getLsbD 1 = true ∧ b.getLsbD 0 = false := by
  revert a n u f x k
  decide

/-- Settles O5: the byte is the status byte, which the open frame shows. -/
theorem frameOpensWithTheStatusByte : Obligations.FrameOpensWithTheStatusByte := by
  intro s p hr hidle hsel
  refine ⟨s.statusByte p, ?_, fun k => ?_, statusBits _ _ _ _ _ _⟩
  · exact (event_taken hr _).trans (congrArg _ (if_pos ⟨hidle, hsel⟩))
  · rw [sdo_header] <;> rw [port_updPort, if_pos rfl]
    rfl

/-! ### The other frame events (R148, R149, R164) -/

/-- Settles O6, event by event. -/
theorem frameEventsBearOnTheirPort : Obligations.FrameEventsBearOnTheirPort := by
  refine fun s p hr => ⟨fun hheader hout => ⟨?_, fun k => ?_⟩, fun hheader => ⟨?_, fun k => ?_⟩,
    fun hresponse hpending => ⟨?_, fun k => ?_⟩, fun hidle => ?_⟩
  · exact (event_taken hr _).trans (congrArg _ (if_pos ⟨hheader, hout⟩))
  · rw [sdo_header] <;> rw [port_updPort, if_pos rfl]
    · rfl
    · exact hheader
  · exact (event_taken hr _).trans (congrArg _ (if_pos hheader))
  · exact sdo_idle (by rw [port_updPort, if_pos rfl]) k
  · exact (event_taken hr _).trans (congrArg _ ((if_pos hresponse).trans (if_neg (Bool.eq_false_iff.1 hpending))))
  · exact sdo_idle (by rw [port_updPort, if_pos rfl]) k
  · exact (event_taken hr _).trans (congrArg _ (if_pos hidle))

/-! ### INFO and STATUS (R162, R163) -/

/-- A command that any port may give, without arguments, is answered with what it does. -/
theorem command_any {body : Unit → State → State × Reply} (h : s.takesHeader p = true) :
    s.command p .any (some ()) body = (body () s).1.respond p (body () s).2 := command_taken h standing_any rfl

theorem causeRecord_eq {k : ResetCause} {bytes : List Byte} (hon : k = .powerOn → bytes = [0x01#8, 0xFF#8])
    (hpin : k = .resetPin → bytes = [0x02#8, 0xFF#8])
    (hcommand : ∀ q, k = .resetCommand q → bytes = [0x03#8, portNumber q]) : k.record = bytes := by
  cases k with
  | powerOn => exact (hon rfl).symm
  | resetPin => exact (hpin rfl).symm
  | resetCommand q => exact (hcommand q rfl).symm

/-- The four bytes of a 32-bit word, most significant first, make the word. -/
theorem append_bytes (x : BitVec 32) :
    x.extractLsb' 24 8 ++ x.extractLsb' 16 8 ++ x.extractLsb' 8 8 ++ x.extractLsb' 0 8 = x := by
  iterate 3 rw [BitVec.extractLsb'_append_extractLsb'_eq_extractLsb' (by rfl)]
  exact BitVec.extractLsb'_eq_self

/-- Settles O12: each answer carries its record as it stands. -/
theorem infoAndStatusReport : Obligations.InfoAndStatusReport := by
  refine fun s p h => ⟨fun cause hon hpin hcommand => ?_, _, _, _, _, append_bytes _, ?_⟩
  · rw [← causeRecord_eq hon hpin hcommand]
    exact congrArg _ (command_any h)
  · exact congrArg _ (command_any h)

/-! ### ATTACH on a DETACHED port (R158, R159, R170) -/

theorem nextGeneration_eq {g b : Byte} (hwrap : g = 0xFF#8 → b = 0x01#8) (hnext : g ≠ 0xFF#8 → b = g + 1) :
    nextGeneration g = b := by
  rw [nextGeneration]
  split
  · next h => exact (hwrap h).symm
  · next h => exact (hnext h).symm

theorem openSession_eq {b : Byte} (h : nextGeneration (s.port p).generation = b) :
    s.openSession p = s.updPort p fun h => { h with attached := true, generation := b } := by
  subst h
  rfl

theorem attachBody_barred (h : s.params.admitted.has p = false) : attachBody p s = (s, Reply.plain .portDisabled) := by
  simp [attachBody, h]

theorem attachBody_detached (h : s.params.admitted.has p = true) (hd : (s.port p).attached = false) :
    attachBody p s = (s.openSession p, ⟨.done, [nextGeneration (s.port p).generation]⟩) := by
  simp [attachBody, h, hd]

theorem exec_attach (h : s.takesHeader p = true) :
    exec (.attach p) s = .next ((attachBody p s).1.respond p (attachBody p s).2) := congrArg _ (command_any h)

/-- Settles O15: the port is barred, or its session opens. -/
theorem attachOpensASession : Obligations.AttachOpensASession := by
  refine fun s p h => ⟨fun hbarred => ?_, fun hadmitted hd g hwrap hnext => ?_⟩
  · rw [exec_attach h, attachBody_barred hbarred]
    rfl
  · have hg := nextGeneration_eq hwrap hnext
    rw [exec_attach h, attachBody_detached hadmitted hd, openSession_eq hg, hg]

end Sys2Proof.Machine

/-! ## The parameter store and the machine after reset (O14, O40, O60) -/

namespace Sys2Proof.Machine

open Sys2Proof

variable {s : State} {p : Port} {v w : Half} {ps ps' : Params}

/-! ### Identifiers and values (Tables 9-1 and 10-15) -/

/-- The identifier of a parameter (Table 10-15). -/
def Param.ident : Param → Byte
  | .busRate => 0x01#8 | .addressRetries => 0x02#8 | .lossLimit => 0x03#8 | .agingLimit => 0x04#8
  | .maintenanceClass => 0x05#8 | .staleMultiple => 0x06#8 | .hangLimit => 0x07#8 | .faultRetry => 0x08#8
  | .maxLease => 0x09#8 | .admitted => 0x0A#8

@[simp] theorem paramArg_ident (k : Param) : paramArg k.ident = some k := by cases k <;> rfl

/-- Outside 1 to 10 no parameter is named (R171). -/
theorem paramArg_eq_none {b : Byte} (h : b.toNat = 0 ∨ 10 < b.toNat) : paramArg b = none := by
  revert b
  decide +kernel

theorem Rate.ofKhz_khz (r : Rate) : Rate.ofKhz r.khz = some r := by cases r <;> rfl

theorem WorkClass.ofCode_code (c : WorkClass) : WorkClass.ofCode c.code = some c := by cases c <;> rfl

/-- An admitted-ports set is written from bits 3 to 0 and reads back with the other bits clear (Table 10-15). -/
theorem setWidth_portSet (v : Half) : (v.setWidth 4).setWidth 16 = v &&& 0x000F#16 := by
  refine BitVec.eq_of_toNat_eq ?_
  rw [BitVec.toNat_and, BitVec.toNat_setWidth, BitVec.toNat_setWidth]
  change v.toNat % 2 ^ 4 % 2 ^ 16 = v.toNat &&& (2 ^ 4 - 1)
  rw [Nat.and_two_pow_sub_one_eq_mod]
  omega

theorem has_portSet (v : Half) (q : Port) : PortSet.has (v.setWidth 4) q = v.getLsbD q.index.val := by
  simp [PortSet.has]

/-! ### GET PARAMETER (R171) -/

theorem exec_getParameter (h : s.takesHeader p = true) (k : Param) : exec (.getParameter p k.ident) s
    = .next (s.respond p ⟨.done, k.ident :: Half.bytes (s.params.value k)⟩) :=
  congrArg _ (command_taken h standing_any (paramArg_ident k))

/-- Settles O14, parameter by parameter. -/
theorem getParameterReadsTheStore : Obligations.GetParameterReadsTheStore := by
  refine fun s p ident h => ⟨fun hout => congrArg _ (command_bad h standing_any (paramArg_eq_none hout)), fun v hv => ?_⟩
  rcases hv with ⟨rfl, rfl⟩ | ⟨rfl, rfl⟩ | ⟨rfl, rfl⟩ | ⟨rfl, rfl⟩ | ⟨rfl, rfl⟩ | ⟨rfl, rfl⟩ | ⟨rfl, rfl⟩ | ⟨rfl, rfl⟩
    | ⟨rfl, rfl⟩ | ⟨rfl, rfl⟩
  exacts [exec_getParameter h .busRate, exec_getParameter h .addressRetries, exec_getParameter h .lossLimit,
    exec_getParameter h .agingLimit, exec_getParameter h .maintenanceClass, exec_getParameter h .staleMultiple,
    exec_getParameter h .hangLimit, exec_getParameter h .faultRetry, exec_getParameter h .maxLease,
    exec_getParameter h .admitted]

/-! ### SET PARAMETER (R169) -/

/-- A parameter set with one parameter written to a value sent: the write is in range, and the parameter then reads as `w`. -/
def Params.Writes (ps : Params) (supervisor : Port) (k : Param) (v w : Half) (ps' : Params) : Prop :=
  ps.write supervisor k v = some ps' ∧ ps'.value k = w

theorem exec_setParameter (h : s.takesHeader p = true) (hs : s.supervisor = p) (ha : (s.port p).attached = true) {k : Param}
    (hw : s.params.Writes p k v w ps') : exec (.setParameter p k.ident v) s
      = .next (State.respond (if ps' = s.params then s else { s with params := ps' }.actOn k) p
          ⟨.done, k.ident :: Half.bytes w⟩) := by
  obtain ⟨hwrite, rfl⟩ := hw
  have hargs : setParamArg s.params s.supervisor k.ident v = some (k, ps') := by
    rw [setParamArg, paramArg_ident, Option.bind_some, hs, hwrite, Option.map_some]
  exact congrArg _ (command_taken h (standing_supervisor hs ha) hargs)

/-- The parameters whose owning rule acts in the event of their change, told by identifier (Table 9-1). -/
theorem actOn_eq (z : State) (k : Param) : z.actOn k
    = if k.ident = 0x04#8 then z.ageAll else if k.ident = 0x05#8 then z.reclassAll
      else if k.ident = 0x06#8 then z.recheckAllStale else if k.ident = 0x07#8 then z.retimeHang else z := by
  cases k <;> rfl

/-- A parameter that carries a number is written where the number is not out of range, and reads as it was sent. -/
theorem writes_of_range {k : Param} {range bad : Prop} [Decidable range] [Decidable bad]
    (hk : ps.write p k v = if range then some ps' else none) (hbad : decide bad = false) (hrange : ¬ bad → range)
    (hv : ps'.value k = BitVec.ofNat 16 v.toNat) : ps.Writes p k v v ps' :=
  ⟨hk.trans (if_pos (hrange (of_decide_eq_false hbad))), hv.trans (by rw [BitVec.ofNat_toNat, BitVec.setWidth_eq])⟩

theorem writes_busRate {r : Rate} (h : r.khz = v.toNat) : ps.Writes p .busRate v v { ps with busRate := r } := by
  refine ⟨?_, ?_⟩
  · rw [Params.write, ← h, Rate.ofKhz_khz]
    rfl
  · rw [Params.value, h, BitVec.ofNat_toNat, BitVec.setWidth_eq]

theorem writes_maintenanceClass {c : WorkClass} (h : c.code = v.toNat) :
    ps.Writes p .maintenanceClass v v { ps with maintenanceClass := c } := by
  refine ⟨?_, ?_⟩
  · rw [Params.write, ← h, WorkClass.ofCode_code]
    rfl
  · rw [Params.value, h, BitVec.ofNat_toNat, BitVec.setWidth_eq]

/-- An admitted-ports set that contains the supervisor port is written (R170). -/
theorem writes_admitted (h : v.getLsbD p.index.val = true) :
    ps.Writes p .admitted v (v &&& 0x000F#16) { ps with admitted := v.setWidth 4 } :=
  ⟨if_pos ((has_portSet v p).trans h), setWidth_portSet v⟩

/-- SET PARAMETER on the supervisor port: an equal value changes nothing, and another is stored and acted on (R169). -/
theorem setParameter_outcomes (h : s.takesHeader p = true) (hs : s.supervisor = p) (ha : (s.port p).attached = true)
    {k : Param} (hw : s.params.Writes p k v w ps') :
    let done : Reply := ⟨.done, k.ident :: Half.bytes w⟩
    let stored := { s with params := ps' }
    (ps' = s.params → exec (.setParameter p k.ident v) s = .next (s.respond p done))
      ∧ (ps' ≠ s.params → exec (.setParameter p k.ident v) s = .next (State.respond
          (if k.ident = 0x04#8 then stored.ageAll
            else if k.ident = 0x05#8 then stored.reclassAll
            else if k.ident = 0x06#8 then stored.recheckAllStale
            else if k.ident = 0x07#8 then stored.retimeHang
            else stored) p done)) := by
  refine ⟨fun heq => ?_, fun hne => ?_⟩
  · rw [exec_setParameter h hs ha hw, if_pos heq]
  · rw [exec_setParameter h hs ha hw, if_neg hne, actOn_eq]

/-- Settles O40, parameter by parameter. -/
theorem setParameterWritesTheStore : Obligations.SetParameterWritesTheStore := by
  intro s p ident v w ps h hs ha hbad hps hw
  subst hw
  rcases hps with ⟨rfl, r, hr, rfl⟩ | ⟨rfl, rfl⟩ | ⟨rfl, rfl⟩ | ⟨rfl, rfl⟩ | ⟨rfl, c, hc, rfl⟩ | ⟨rfl, rfl⟩ | ⟨rfl, rfl⟩
    | ⟨rfl, rfl⟩ | ⟨rfl, rfl⟩ | ⟨rfl, rfl⟩
  · exact setParameter_outcomes h hs ha (writes_busRate hr)
  · exact setParameter_outcomes h hs ha (k := .addressRetries) (writes_of_range rfl hbad (by omega) rfl)
  · exact setParameter_outcomes h hs ha (k := .lossLimit) (writes_of_range rfl hbad (by omega) rfl)
  · exact setParameter_outcomes h hs ha (k := .agingLimit) (writes_of_range rfl hbad (by omega) rfl)
  · exact setParameter_outcomes h hs ha (writes_maintenanceClass hc)
  · exact setParameter_outcomes h hs ha (k := .staleMultiple) (writes_of_range rfl hbad (by omega) rfl)
  · exact setParameter_outcomes h hs ha (k := .hangLimit) (writes_of_range rfl hbad (by omega) rfl)
  · exact setParameter_outcomes h hs ha (k := .faultRetry) (writes_of_range rfl hbad (by omega) rfl)
  · exact setParameter_outcomes h hs ha (k := .maxLease) (writes_of_range rfl hbad (by omega) rfl)
  · exact setParameter_outcomes h hs ha (writes_admitted (by simpa [badParameter] using hbad))

/-! ### The machine after reset (Table 9-3) -/

@[simp] theorem request_reset (n : SlotId) : State.reset.request n = none := by
  simp [State.request, State.slot, State.reset, Vector.get]

@[simp] theorem entryUse_reset (e : EntryId) : State.reset.entryUse e = none := by
  simp [State.entryUse, State.entry, State.reset, Vector.get]

@[simp] theorem target_reset (t : TargetId) : State.reset.target t = none := by
  simp [State.target, State.reset, Vector.get]

@[simp] theorem list_reset (p : Port) : State.reset.list p = [] := PerPort.get_same _ p

@[simp] theorem noticePort_reset (p : Port) : State.reset.noticePort p = NoticePort.fresh := PerPort.get_same _ p

@[simp] theorem engine_reset : State.reset.engine = .idle := rfl

theorem holdsNothing_reset (p : Port) : State.reset.holdsNothing p := by simp [State.holdsNothing]

/-- The monitor is UNKNOWN with the idle confirmation timer alone, which the high lines let run (R114, R133). -/
theorem busLaw_reset : State.reset.busLaw := ⟨rfl, by decide⟩

/-- Nothing is listed, nothing is held and no transfer runs. -/
theorem poolLaw_reset : State.reset.poolLaw := by simp [State.poolLaw]

/-- With every slot FREE every tally is 0 (R8). -/
theorem quotaLaw_reset : State.reset.quotaLaw := by
  have htally (p : Port) : State.reset.tally p = 0 := by simp [State.tally, State.ownedBy]
  simp [State.quotaLaw, State.sharedInUse, htally, Port.all]

theorem sizeLaw_reset : State.reset.sizeLaw := by simp [State.sizeLaw]

theorem lockLaw_reset : State.reset.lockLaw := by simp [State.lockLaw]

theorem healthLaw_reset : State.reset.healthLaw := by simp [State.healthLaw]

theorem mirrorLaw_reset : State.reset.mirrorLaw := by simp [State.mirrorLaw]

theorem tableLaw_reset : State.reset.tableLaw := by simp [State.tableLaw]

/-- A power-on reset that ends with the straps 00, both lines high and every chip select high leaves the machine after reset
whatever stood before it; the queue of commands is the model's own (R174, notes/assumptions/1.md). -/
theorem leaveReset_eq_reset (s : State) :
    s.leaveReset 0#2 .powerOn ⟨true, true⟩ 0#4 = { State.reset with pending := s.pending } := rfl

/-- Settles O60: every law over blocks that hold nothing, and the power-on reset through its end. -/
theorem lawsHoldAtReset : Obligations.LawsHoldAtReset :=
  ⟨⟨noticeLaw_of_fresh noticePort_reset, lockLaw_reset, fun p _ => holdsNothing_reset p, busLaw_reset, poolLaw_reset,
    quotaLaw_reset, sizeLaw_reset, healthLaw_reset, mirrorLaw_reset, tableLaw_reset⟩,
    _, rfl, congrArg _ (leaveReset_eq_reset _)⟩

end Sys2Proof.Machine

/-! ## The step (O1) -/

namespace Sys2Proof.Machine

open Sys2Proof

variable {s : State}

/-- With no command waiting the block idles (notes/assumptions/2.md). -/
theorem step_of_pending_nil (h : s.pending = []) : step s = .next s := by
  rw [step, h]

/-- The command in front of the queue is run with the queue's rest (notes/assumptions/2.md). -/
theorem step_of_pending_cons {c : Instr} {rest : List Instr} (h : s.pending = c :: rest) :
    step s = exec c { s with pending := rest } := by
  rw [step, h]

/-- Settles O1: the step by what the queue holds. The state that `exec` is given writes the queue over a second time, so the
queue put in front of the step leaves no trace. -/
theorem stepTakesTheCommandInFront : Obligations.StepTakesTheCommandInFront :=
  ⟨fun c rest s => step_of_pending_cons (s := { s with pending := c :: rest }) rfl, fun _ => step_of_pending_nil⟩

end Sys2Proof.Machine

/-! ## What the operations leave of the registers of the blocks

Notice masks, declarations, sponsor records and held values are written by few commands (R3, R54, R76, R137). Each is
observed here as a function of one field of the state, so that the frames of the operations that do not touch the field
settle it, and the operations that do touch it have one lemma each. -/

namespace Sys2Proof.Machine

open Sys2Proof

/-- The declared fields of a target (R76). -/
def Target.declared (x : Target) : Declaration :=
  ⟨x.addr, x.speed, x.stretchLimit, x.threshold, x.probeInterval, x.readSet, x.writeSet⟩

/-- The notice masks (R136), the declarations (R76), the use, key and sponsors of each entry (R49, R50, R54), and the key
and value of each entry in use (R48). -/
def masksOf (x : PerPort NoticePort) (p : Port) : Byte := (x.get p).mask
def declaredOf (x : Vector (Option Target) 32) (u : TargetId) : Option Declaration := (x.get u).map Target.declared
def sponsoredOf (x : Vector MirrorEntry 24) (e : EntryId) : Byte × Option (Key × PerPort (Option Sponsor)) :=
  ((x.get e).issue, (x.get e).use.map fun u => (u.key, u.sponsors))
def heldOf (x : Vector MirrorEntry 24) (e : EntryId) : Option (Key × Option HeldValue) :=
  (x.get e).use.map fun u => (u.key, u.value)

variable (s : State)

/-! ### Writing one record -/

@[simp] theorem masksOf_setNoticePort {p : Port} {v : NoticePort} (h : v.mask = (s.noticePort p).mask) :
    masksOf (s.setNoticePort p v).notices = masksOf s.notices := by
  funext q
  simp only [State.setNoticePort, masksOf, PerPort.get_set]
  split
  · next hq => rw [hq, h]; rfl
  · rfl

@[simp] theorem declaredOf_updTarget {t : TargetId} {f : Target → Target} (h : ∀ x, (f x).addr = x.addr
    ∧ (f x).speed = x.speed ∧ (f x).stretchLimit = x.stretchLimit ∧ (f x).threshold = x.threshold
    ∧ (f x).probeInterval = x.probeInterval ∧ (f x).readSet = x.readSet ∧ (f x).writeSet = x.writeSet) :
    declaredOf (s.updTarget t f).targets = declaredOf s.targets := by
  have hf (x : Target) : (f x).declared = x.declared := by simpa [Target.declared] using h x
  funext u
  change ((s.updTarget t f).target u).map _ = (s.target u).map _
  rw [target_updTarget]
  split
  · next hu => rw [hu, Option.map_map]; exact congrArg (Option.map · _) (funext hf)
  · rfl

@[simp] theorem sponsoredOf_updEntry {e : EntryId} {f : MirrorUse → MirrorUse}
    (h : ∀ u, (f u).key = u.key ∧ (f u).sponsors = u.sponsors) :
    sponsoredOf (s.updEntry e f).entries = sponsoredOf s.entries := by
  funext d
  change (((s.updEntry e f).entry d).issue, ((s.updEntry e f).entryUse d).map _) = ((s.entry d).issue, (s.entryUse d).map _)
  rw [issue_updEntry, entryUse_updEntry]
  split
  · next hd =>
    rw [hd, Option.map_map]
    exact congrArg (fun g => (_, Option.map g _)) (funext fun u => Prod.ext (h u).1 (h u).2)
  · rfl

@[simp] theorem heldOf_updEntry {e : EntryId} {f : MirrorUse → MirrorUse}
    (h : ∀ u, (f u).key = u.key ∧ (f u).value = u.value) : heldOf (s.updEntry e f).entries = heldOf s.entries := by
  funext d
  change ((s.updEntry e f).entryUse d).map _ = (s.entryUse d).map _
  rw [entryUse_updEntry]
  split
  · next hd =>
    rw [hd, Option.map_map]
    exact congrArg (Option.map · _) (funext fun u => Prod.ext (h u).1 (h u).2)
  · rfl

/-! ### Notices and slots -/

@[simp] theorem masksOf_offer (n : Notice) (p : Port) : masksOf (s.offer n p).notices = masksOf s.notices := by
  simp only [State.offer]
  split <;> simp

@[simp] theorem masksOf_offerTo (n : Notice) (ps : List Port) : masksOf (s.offerTo n ps).notices = masksOf s.notices :=
  foldl_keep (fun s : State => masksOf s.notices) (fun a p => masksOf_offer a n p) _ _

@[simp] theorem masksOf_offerMirrorState (e : EntryId) (u : MirrorUse) (m : MirrorState) :
    masksOf (s.offerMirrorState e u m).notices = masksOf s.notices := masksOf_offerTo s _ _

@[simp] theorem masksOf_offerTargetState (t : TargetId) : masksOf (s.offerTargetState t).notices = masksOf s.notices := by
  simp only [State.offerTargetState]
  split <;> simp

@[simp] theorem masksOf_completeSlot (n : SlotId) (x : Result) :
    masksOf (s.completeSlot n x).notices = masksOf s.notices := by
  simp only [State.completeSlot]
  (repeat' split) <;> simp

@[simp] theorem masksOf_completeQueued (p : Port) (c : Request → Bool) (o : TransferOutcome) :
    masksOf (s.completeQueued p c o).notices = masksOf s.notices :=
  foldl_keep (fun s : State => masksOf s.notices) (fun _ _ => by simp) _ _

@[simp] theorem masksOf_completeQueuedAll (c : Request → Bool) (o : TransferOutcome) :
    masksOf (s.completeQueuedAll c o).notices = masksOf s.notices :=
  foldl_keep (fun s : State => masksOf s.notices) (fun _ _ => by simp) _ _

@[simp] theorem masksOf_notLockedOf (p : Port) : masksOf (s.notLockedOf p).notices = masksOf s.notices :=
  foldl_keep (fun s : State => masksOf s.notices) (fun _ _ => by split <;> simp) _ _

@[simp] theorem masksOf_notLockedAll : masksOf s.notLockedAll.notices = masksOf s.notices :=
  foldl_keep (fun s : State => masksOf s.notices) (fun _ _ => by simp) _ _

/-! ### The mirror table -/

@[simp] theorem makePollDue_keeps (e : EntryId) (due : Nat) :
    sponsoredOf (s.makePollDue e due).entries = sponsoredOf s.entries
      ∧ heldOf (s.makePollDue e due).entries = heldOf s.entries := by
  simp [State.makePollDue]

@[simp] theorem recomputeDue_keeps (e : EntryId) : sponsoredOf (s.recomputeDue e).entries = sponsoredOf s.entries
    ∧ heldOf (s.recomputeDue e).entries = heldOf s.entries := by
  simp only [State.recomputeDue]
  (repeat' split) <;> simp

@[simp] theorem goStale_keeps (e : EntryId) (u : MirrorUse) : masksOf (s.goStale e u).notices = masksOf s.notices
    ∧ sponsoredOf (s.goStale e u).entries = sponsoredOf s.entries
    ∧ heldOf (s.goStale e u).entries = heldOf s.entries := by
  simp [State.goStale]

@[simp] theorem recheckStale_keeps (e : EntryId) : masksOf (s.recheckStale e).notices = masksOf s.notices
    ∧ sponsoredOf (s.recheckStale e).entries = sponsoredOf s.entries
    ∧ heldOf (s.recheckStale e).entries = heldOf s.entries := by
  simp only [State.recheckStale]
  (repeat' split) <;> simp

@[simp] theorem recheckAllStale_keeps : masksOf s.recheckAllStale.notices = masksOf s.notices
    ∧ sponsoredOf s.recheckAllStale.entries = sponsoredOf s.entries
    ∧ heldOf s.recheckAllStale.entries = heldOf s.entries :=
  ⟨foldl_keep (fun s : State => masksOf s.notices) (fun _ _ => by simp) _ _,
    foldl_keep (fun s : State => sponsoredOf s.entries) (fun _ _ => by simp) _ _,
    foldl_keep (fun s : State => heldOf s.entries) (fun _ _ => by simp) _ _⟩

/-- Another sponsor set leaves keys and values (R50, R52). -/
@[simp] theorem setSponsors_keeps (e : EntryId) (x : PerPort (Option Sponsor)) :
    masksOf (s.setSponsors e x).notices = masksOf s.notices ∧ heldOf (s.setSponsors e x).entries = heldOf s.entries := by
  simp only [State.setSponsors]
  (repeat' split) <;> simp

@[simp] theorem joinEntry_keeps (e : EntryId) (p : Port) (x : Sponsor) :
    masksOf (s.joinEntry e p x).notices = masksOf s.notices ∧ heldOf (s.joinEntry e p x).entries = heldOf s.entries := by
  simp only [State.joinEntry]
  split <;> simp

@[simp] theorem masksOf_removeSponsor (e : EntryId) (p : Port) :
    masksOf (s.removeSponsor e p).notices = masksOf s.notices := by
  simp only [State.removeSponsor]
  (repeat' split) <;> simp

@[simp] theorem masksOf_endSponsorships (p : Port) : masksOf (s.endSponsorships p).notices = masksOf s.notices :=
  foldl_keep (fun s : State => masksOf s.notices) (fun _ _ => by simp) _ _

@[simp] theorem startPoll_keeps (e : EntryId) (m : Maint) : sponsoredOf (s.startPoll e m).entries = sponsoredOf s.entries
    ∧ heldOf (s.startPoll e m).entries = heldOf s.entries := by
  constructor
  · exact sponsoredOf_updEntry s fun u => by split <;> simp
  · exact heldOf_updEntry s fun u => by split <;> simp

@[simp] theorem sponsoredOf_storeValue (e : EntryId) (d : List Byte) (b : Bool) :
    sponsoredOf (s.storeValue e d b).entries = sponsoredOf s.entries := by
  simp [State.storeValue]

@[simp] theorem pollOk_keeps (e : EntryId) (u : MirrorUse) (d : List Byte) :
    masksOf (s.pollOk e u d).notices = masksOf s.notices
      ∧ sponsoredOf (s.pollOk e u d).entries = sponsoredOf s.entries := by
  simp only [State.pollOk]
  (repeat' split) <;> simp

@[simp] theorem dueAfterPoll_keeps (e : EntryId) : sponsoredOf (s.dueAfterPoll e).entries = sponsoredOf s.entries
    ∧ heldOf (s.dueAfterPoll e).entries = heldOf s.entries := by
  simp only [State.dueAfterPoll]
  split <;> simp

@[simp] theorem completePoll_keeps (e : EntryId) (i : Byte) (o : TransferOutcome) (d : List Byte) :
    masksOf (s.completePoll e i o d).notices = masksOf s.notices
      ∧ sponsoredOf (s.completePoll e i o d).entries = sponsoredOf s.entries := by
  simp only [State.completePoll]
  (repeat' split) <;> simp

@[simp] theorem failEntry_keeps (a : Byte) (e : EntryId) : masksOf (s.failEntry a e).notices = masksOf s.notices
    ∧ sponsoredOf (s.failEntry a e).entries = sponsoredOf s.entries
    ∧ heldOf (s.failEntry a e).entries = heldOf s.entries := by
  simp only [State.failEntry]
  (repeat' split) <;> simp

@[simp] theorem failEntries_keeps (a : Byte) : masksOf (s.failEntries a).notices = masksOf s.notices
    ∧ sponsoredOf (s.failEntries a).entries = sponsoredOf s.entries
    ∧ heldOf (s.failEntries a).entries = heldOf s.entries :=
  ⟨foldl_keep (fun s : State => masksOf s.notices) (fun _ _ => by simp) _ _,
    foldl_keep (fun s : State => sponsoredOf s.entries) (fun _ _ => by simp) _ _,
    foldl_keep (fun s : State => heldOf s.entries) (fun _ _ => by simp) _ _⟩

@[simp] theorem returnEntry_keeps (a : Byte) (e : EntryId) : masksOf (s.returnEntry a e).notices = masksOf s.notices
    ∧ sponsoredOf (s.returnEntry a e).entries = sponsoredOf s.entries
    ∧ heldOf (s.returnEntry a e).entries = heldOf s.entries := by
  simp only [State.returnEntry]
  (repeat' split) <;> simp

@[simp] theorem returnEntries_keeps (a : Byte) : masksOf (s.returnEntries a).notices = masksOf s.notices
    ∧ sponsoredOf (s.returnEntries a).entries = sponsoredOf s.entries
    ∧ heldOf (s.returnEntries a).entries = heldOf s.entries :=
  ⟨foldl_keep (fun s : State => masksOf s.notices) (fun _ _ => by simp) _ _,
    foldl_keep (fun s : State => sponsoredOf s.entries) (fun _ _ => by simp) _ _,
    foldl_keep (fun s : State => heldOf s.entries) (fun _ _ => by simp) _ _⟩

@[simp] theorem repend_keeps (e : EntryId) (i : Byte) (m : Maint) :
    sponsoredOf (s.repend e i m).entries = sponsoredOf s.entries ∧ heldOf (s.repend e i m).entries = heldOf s.entries := by
  simp only [State.repend]
  (repeat' split) <;> simp

/-! ### The dispatcher -/

@[simp] theorem startWork_keeps (w : Work) : declaredOf (s.startWork w).targets = declaredOf s.targets
    ∧ sponsoredOf (s.startWork w).entries = sponsoredOf s.entries
    ∧ heldOf (s.startWork w).entries = heldOf s.entries := by
  simp only [State.startWork]
  (repeat' split) <;> simp

@[simp] theorem select_keeps : declaredOf s.select.targets = declaredOf s.targets
    ∧ sponsoredOf s.select.entries = sponsoredOf s.entries ∧ heldOf s.select.entries = heldOf s.entries := by
  simp only [State.select]
  (repeat' split) <;> simp

@[simp] theorem settle_keeps : masksOf s.settle.notices = masksOf s.notices
    ∧ declaredOf s.settle.targets = declaredOf s.targets ∧ sponsoredOf s.settle.entries = sponsoredOf s.entries
    ∧ heldOf s.settle.entries = heldOf s.entries := by
  simp [State.settle]

@[simp] theorem ageOne_keeps (w : Waiting) : declaredOf (s.ageOne w).targets = declaredOf s.targets
    ∧ sponsoredOf (s.ageOne w).entries = sponsoredOf s.entries
    ∧ heldOf (s.ageOne w).entries = heldOf s.entries := by
  cases w <;> simp [State.ageOne]

/-- What every step of each pass of an aging or a reclassing keeps, the passes keep (R41, R42). -/
@[simp] theorem ageAll_keeps : declaredOf s.ageAll.targets = declaredOf s.targets
    ∧ sponsoredOf s.ageAll.entries = sponsoredOf s.entries ∧ heldOf s.ageAll.entries = heldOf s.entries := by
  have pass {k : Nat} {α : Type} (obs : State → α) (w : Fin k → Waiting) (h : ∀ a v, obs (State.ageOne a v) = obs a)
      (a : State) : obs ((List.finRange k).foldl (fun s i => s.ageOne (w i)) a) = obs a :=
    foldl_keep obs (fun a i => h a (w i)) _ _
  have all {α : Type} (obs : State → α) (h : ∀ a v, obs (State.ageOne a v) = obs a) : obs s.ageAll = obs s :=
    (pass obs _ h _).trans ((pass obs _ h _).trans (pass obs _ h _))
  exact ⟨all (fun s : State => declaredOf s.targets) fun _ _ => by simp, all (fun s : State => sponsoredOf s.entries) fun _ _ => by simp,
    all (fun s : State => heldOf s.entries) fun _ _ => by simp⟩

@[simp] theorem reclassAll_keeps : declaredOf s.reclassAll.targets = declaredOf s.targets
    ∧ sponsoredOf s.reclassAll.entries = sponsoredOf s.entries
    ∧ heldOf s.reclassAll.entries = heldOf s.entries := by
  have all {α : Type} (obs : State → α)
      (hpoll : ∀ (a : State) e, obs (a.updEntry e fun u => { u with pending := u.pending.map (Maint.reclassed a) }) = obs a)
      (hprobe : ∀ (a : State) t, obs (a.updTarget t fun x => { x with probe := x.probe.map (Maint.reclassed a) }) = obs a) :
      obs s.reclassAll = obs s :=
    (foldl_keep obs hprobe _ _).trans (foldl_keep obs hpoll _ _)
  exact ⟨all (fun s : State => declaredOf s.targets) (fun _ _ => by simp) fun _ _ => by simp,
    all (fun s : State => sponsoredOf s.entries) (fun _ _ => by simp) fun _ _ => by simp,
    all (fun s : State => heldOf s.entries) (fun _ _ => by simp) fun _ _ => by simp⟩

/-! ### The target table -/

@[simp] theorem declaredOf_scheduleProbe (t : TargetId) :
    declaredOf (s.scheduleProbe t).targets = declaredOf s.targets := by
  simp [State.scheduleProbe]

@[simp] theorem declaredOf_reschedule (t : TargetId) : declaredOf (s.reschedule t).targets = declaredOf s.targets := by
  simp only [State.reschedule]
  split <;> simp

@[simp] theorem declaredOf_reprobe (t : TargetId) (m : Maint) :
    declaredOf (s.reprobe t m).targets = declaredOf s.targets :=
  declaredOf_updTarget s fun x => by split <;> simp

@[simp] theorem quarantineOnset_keeps (t : TargetId) : masksOf (s.quarantineOnset t).notices = masksOf s.notices
    ∧ declaredOf (s.quarantineOnset t).targets = declaredOf s.targets
    ∧ sponsoredOf (s.quarantineOnset t).entries = sponsoredOf s.entries
    ∧ heldOf (s.quarantineOnset t).entries = heldOf s.entries := by
  simp only [State.quarantineOnset]
  split <;> simp

@[simp] theorem quarantineEnd_keeps (t : TargetId) : masksOf (s.quarantineEnd t).notices = masksOf s.notices
    ∧ declaredOf (s.quarantineEnd t).targets = declaredOf s.targets
    ∧ sponsoredOf (s.quarantineEnd t).entries = sponsoredOf s.entries
    ∧ heldOf (s.quarantineEnd t).entries = heldOf s.entries := by
  simp only [State.quarantineEnd]
  split <;> simp

@[simp] theorem countFailure_keeps (t : TargetId) : masksOf (s.countFailure t).notices = masksOf s.notices
    ∧ declaredOf (s.countFailure t).targets = declaredOf s.targets
    ∧ sponsoredOf (s.countFailure t).entries = sponsoredOf s.entries
    ∧ heldOf (s.countFailure t).entries = heldOf s.entries := by
  simp only [State.countFailure]
  (repeat' split) <;> simp

@[simp] theorem countSuccess_keeps (t : TargetId) : masksOf (s.countSuccess t).notices = masksOf s.notices
    ∧ declaredOf (s.countSuccess t).targets = declaredOf s.targets
    ∧ sponsoredOf (s.countSuccess t).entries = sponsoredOf s.entries
    ∧ heldOf (s.countSuccess t).entries = heldOf s.entries := by
  simp only [State.countSuccess]
  (repeat' split) <;> simp

@[simp] theorem account_keeps (a : Byte) (o : TransferOutcome) (b : Bool) :
    masksOf (s.account a o b).notices = masksOf s.notices
      ∧ declaredOf (s.account a o b).targets = declaredOf s.targets
      ∧ sponsoredOf (s.account a o b).entries = sponsoredOf s.entries
      ∧ heldOf (s.account a o b).entries = heldOf s.entries := by
  simp only [State.account]
  (repeat' split) <;> simp

/-- A redeclaration leaves masks, sponsors and values (R77). -/
@[simp] theorem redeclare_keeps (t : TargetId) (x : Target) (d : Declaration) :
    masksOf (s.redeclare t x d).notices = masksOf s.notices
      ∧ sponsoredOf (s.redeclare t x d).entries = sponsoredOf s.entries
      ∧ heldOf (s.redeclare t x d).entries = heldOf s.entries := by
  simp only [State.redeclare]
  split <;> simp

/-! ### Locks and sessions -/

@[simp] theorem declaredOf_grant (t : TargetId) (p : Port) (n : Nat) :
    declaredOf (s.grant t p n).targets = declaredOf s.targets := by
  simp [State.grant]

@[simp] theorem declaredOf_leaveWait (t : TargetId) (p : Port) :
    declaredOf (s.leaveWait t p).targets = declaredOf s.targets := by
  simp [State.leaveWait]

@[simp] theorem grantNext_keeps (t : TargetId) : masksOf (s.grantNext t).notices = masksOf s.notices
    ∧ declaredOf (s.grantNext t).targets = declaredOf s.targets := by
  simp only [State.grantNext]
  (repeat' split) <;> simp

@[simp] theorem release_keeps (t : TargetId) (p : Port) (c : Option LockEnd) :
    masksOf (s.release t p c).notices = masksOf s.notices
      ∧ declaredOf (s.release t p c).targets = declaredOf s.targets := by
  simp only [State.release]
  (repeat' split) <;> simp

@[simp] theorem endLocks_keeps (p : Port) : masksOf (s.endLocks p).notices = masksOf s.notices
    ∧ declaredOf (s.endLocks p).targets = declaredOf s.targets := by
  have one (a : State) (t : TargetId) : masksOf (a.endLock p t).notices = masksOf a.notices
      ∧ declaredOf (a.endLock p t).targets = declaredOf a.targets := by
    simp only [State.endLock]
    (repeat' split) <;> simp
  exact ⟨foldl_keep (fun s : State => masksOf s.notices) (fun a t => (one a t).1) _ _,
    foldl_keep (fun s : State => declaredOf s.targets) (fun a t => (one a t).2) _ _⟩

/-- The end of a session restores the mask of its port alone, and declares nothing (R145, R160). -/
theorem masksOf_endSession (p q : Port) (h : q ≠ p) : masksOf (s.endSession p).notices q = masksOf s.notices q := by
  obtain ⟨z, hz⟩ : ∃ z, z = ((s.endSlots p).endLocks p).endSponsorships p := ⟨_, rfl⟩
  have hmasks : masksOf z.notices = masksOf s.notices := by simp [hz]
  have hset : masksOf (z.setNoticePort p NoticePort.fresh).notices q = masksOf z.notices q := by
    simp [State.setNoticePort, masksOf, h]
  rw [State.endSession, ← hz, ← hmasks, ← hset]
  simp

@[simp] theorem declaredOf_endSession (p : Port) : declaredOf (s.endSession p).targets = declaredOf s.targets := by
  simp [State.endSession]

/-! ### The monitor and the engine -/

@[simp] theorem masksOf_clearFault : masksOf s.clearFault.notices = masksOf s.notices := by
  simp only [State.clearFault]
  split <;> simp

@[simp] theorem masksOf_reachFree : masksOf s.reachFree.notices = masksOf s.notices := by simp [State.reachFree]

@[simp] theorem masksOf_reachForeign (l : Lines) : masksOf (s.reachForeign l).notices = masksOf s.notices := by
  simp [State.reachForeign]

@[simp] theorem masksOf_enterFaulted : masksOf s.enterFaulted.notices = masksOf s.notices := by
  simp only [State.enterFaulted]
  split <;> simp

@[simp] theorem endAttempt_keeps (l : Lines) : masksOf (s.endAttempt l).notices = masksOf s.notices
    ∧ declaredOf (s.endAttempt l).targets = declaredOf s.targets
    ∧ sponsoredOf (s.endAttempt l).entries = sponsoredOf s.entries
    ∧ heldOf (s.endAttempt l).entries = heldOf s.entries := by
  simp only [State.endAttempt]
  (repeat' split) <;> simp

@[simp] theorem hangExpires_keeps : masksOf s.hangExpires.notices = masksOf s.notices
    ∧ declaredOf s.hangExpires.targets = declaredOf s.targets
    ∧ sponsoredOf s.hangExpires.entries = sponsoredOf s.entries
    ∧ heldOf s.hangExpires.entries = heldOf s.entries := by
  simp only [State.hangExpires]
  (repeat' split) <;> simp

@[simp] theorem retimeHang_keeps : masksOf s.retimeHang.notices = masksOf s.notices
    ∧ declaredOf s.retimeHang.targets = declaredOf s.targets
    ∧ sponsoredOf s.retimeHang.entries = sponsoredOf s.entries
    ∧ heldOf s.retimeHang.entries = heldOf s.entries := by
  simp only [State.retimeHang]
  (repeat' split) <;> simp

@[simp] theorem deliver_keeps (w : Work) (r : Report) : masksOf (s.deliver w r).notices = masksOf s.notices
    ∧ declaredOf (s.deliver w r).targets = declaredOf s.targets
    ∧ sponsoredOf (s.deliver w r).entries = sponsoredOf s.entries := by
  simp only [State.deliver]
  (repeat' split) <;> simp

@[simp] theorem finishTransfer_keeps (w : Work) (r : Report) :
    masksOf (s.finishTransfer w r).notices = masksOf s.notices
      ∧ declaredOf (s.finishTransfer w r).targets = declaredOf s.targets
      ∧ sponsoredOf (s.finishTransfer w r).entries = sponsoredOf s.entries := by
  simp [State.finishTransfer]

@[simp] theorem nackAddress_keeps (f : Transfer) : masksOf (s.nackAddress f).notices = masksOf s.notices
    ∧ declaredOf (s.nackAddress f).targets = declaredOf s.targets
    ∧ sponsoredOf (s.nackAddress f).entries = sponsoredOf s.entries := by
  simp only [State.nackAddress]
  split <;> simp

@[simp] theorem endTransfer_keeps (f : Transfer) (how : TransferEnd) :
    masksOf (s.endTransfer f how).notices = masksOf s.notices
      ∧ declaredOf (s.endTransfer f how).targets = declaredOf s.targets
      ∧ sponsoredOf (s.endTransfer f how).entries = sponsoredOf s.entries := by
  simp only [State.endTransfer]
  (repeat' split) <;> simp

@[simp] theorem loseRequest_keeps (n : SlotId) (b : Nat) (a : Bool) :
    masksOf (s.loseRequest n b a).notices = masksOf s.notices
      ∧ declaredOf (s.loseRequest n b a).targets = declaredOf s.targets
      ∧ sponsoredOf (s.loseRequest n b a).entries = sponsoredOf s.entries := by
  simp only [State.loseRequest]
  (repeat' split) <;> simp

@[simp] theorem loseTransfer_keeps (w : Work) (l : Lines) (b : Nat) (a : Bool) :
    masksOf (s.loseTransfer w l b a).notices = masksOf s.notices
      ∧ declaredOf (s.loseTransfer w l b a).targets = declaredOf s.targets
      ∧ sponsoredOf (s.loseTransfer w l b a).entries = sponsoredOf s.entries := by
  simp only [State.loseTransfer]
  (repeat' split) <;> simp

@[simp] theorem stretchExpires_keeps (f : Transfer) (g : Progress) :
    masksOf (s.stretchExpires f g).notices = masksOf s.notices
      ∧ declaredOf (s.stretchExpires f g).targets = declaredOf s.targets
      ∧ sponsoredOf (s.stretchExpires f g).entries = sponsoredOf s.entries := by
  simp [State.stretchExpires]

@[simp] theorem observeStart_keeps : masksOf s.observeStart.notices = masksOf s.notices
    ∧ declaredOf s.observeStart.targets = declaredOf s.targets
    ∧ sponsoredOf s.observeStart.entries = sponsoredOf s.entries := by
  simp only [State.observeStart]
  (repeat' split) <;> simp

@[simp] theorem observeStop_keeps : masksOf s.observeStop.notices = masksOf s.notices
    ∧ declaredOf s.observeStop.targets = declaredOf s.targets
    ∧ sponsoredOf s.observeStop.entries = sponsoredOf s.entries
    ∧ heldOf s.observeStop.entries = heldOf s.entries := by
  simp only [State.observeStop]
  (repeat' split) <;> simp

@[simp] theorem observeOther_keeps (l : Lines) : masksOf (s.observeOther l).notices = masksOf s.notices
    ∧ declaredOf (s.observeOther l).targets = declaredOf s.targets
    ∧ sponsoredOf (s.observeOther l).entries = sponsoredOf s.entries := by
  simp only [State.observeOther]
  (repeat' split) <;> simp

@[simp] theorem observeChange_keeps (c : LineChange) : masksOf (s.observeChange c).notices = masksOf s.notices
    ∧ declaredOf (s.observeChange c).targets = declaredOf s.targets
    ∧ sponsoredOf (s.observeChange c).entries = sponsoredOf s.entries := by
  simp only [State.observeChange]
  (repeat' split) <;> simp

end Sys2Proof.Machine

/-! ## What the operations do to the slot pool

Two things hold of nearly every operation (R3, R6, R13, R21, R22): a slot in use afterwards was in use before, for the same
request; and the law of the pool is kept for the one slot that is ACTIVE. An operation that moves the engine too changes
which slot that is, so the law is stated for a given ACTIVE slot first. -/

namespace Sys2Proof.Machine

open Sys2Proof

variable {s t z : State} {n m : SlotId} {p : Port} {r : Request} {w v : Option SlotId} {ok : Result → Prop}

/-! ### One request -/

/-- A request as it goes on in its slot: its owner, session and descriptor stand (R3), and a result that it did not have
before is one of those told. -/
structure Request.follows (ok : Result → Prop) (r q : Request) : Prop where
  owner : q.owner = r.owner
  generation : q.generation = r.generation
  desc : q.desc = r.desc
  result : ∀ x, q.state = .done x → r.state = .done x ∨ ok x

theorem Request.follows.refl (ok : Result → Prop) (r : Request) : r.follows ok r := ⟨rfl, rfl, rfl, fun _ h => .inl h⟩

theorem Request.follows.trans {a b c : Request} (h : a.follows ok b) (k : b.follows ok c) : a.follows ok c where
  owner := k.owner.trans h.owner
  generation := k.generation.trans h.generation
  desc := k.desc.trans h.desc
  result x hx := (k.result x hx).elim (h.result x) .inr

/-- What leaves owner, session, descriptor and state leaves the request to go on. -/
theorem Request.follows.of_same {q : Request} (ho : q.owner = r.owner) (hg : q.generation = r.generation)
    (hd : q.desc = r.desc) (hs : q.state = r.state ∨ ∀ x, q.state ≠ .done x) : r.follows ok q :=
  ⟨ho, hg, hd, fun x hx => hs.elim (fun e => .inl (e ▸ hx)) fun e => absurd hx (e x)⟩

theorem Request.follows.completed {x : Result} {q : Request} (hx : ok x) (h : r.completed x = some q) : r.follows ok q := by
  simp only [Request.completed, Option.ite_none_left_eq_some, Option.some.injEq] at h
  obtain ⟨-, rfl⟩ := h
  exact ⟨rfl, rfl, rfl, fun y hy => .inr (SlotState.done.inj hy ▸ hx)⟩

theorem aged_follows (z : State) (r : Request) : r.follows ok (r.aged z) := by
  rw [Request.aged]
  split <;> exact .of_same rfl rfl rfl (.inl rfl)

/-! ### The slots go on -/

/-- No slot is allocated, and every request goes on or leaves its slot. -/
structure SlotsFollow (ok : Result → Prop) (s t : State) : Prop where
  issue : ∀ n, (t.slot n).issue = (s.slot n).issue
  request : ∀ n q, t.request n = some q → ∃ r, s.request n = some r ∧ r.follows ok q

theorem SlotsFollow.of_slots (h : t.slots = s.slots) : SlotsFollow ok s t where
  issue n := by rw [slot_of_slots h]
  request n q hq := ⟨q, by rwa [request_of_slots h] at hq, .refl ok q⟩

theorem SlotsFollow.refl (ok : Result → Prop) (s : State) : SlotsFollow ok s s := .of_slots rfl

theorem SlotsFollow.trans (h : SlotsFollow ok s t) (k : SlotsFollow ok t z) : SlotsFollow ok s z where
  issue n := (k.issue n).trans (h.issue n)
  request n q hq := by
    obtain ⟨b, hb, hbq⟩ := k.request n q hq
    obtain ⟨a, ha, hab⟩ := h.request n b hb
    exact ⟨a, ha, hab.trans hbq⟩

theorem SlotsFollow.ite {c : Prop} [Decidable c] (h : SlotsFollow ok s t) (k : SlotsFollow ok s z) :
    SlotsFollow ok s (if c then t else z) := by
  split
  · exact h
  · exact k

/-- What happens to the slots reads neither engine nor monitor. -/
theorem SlotsFollow.after (h : SlotsFollow ok s t) (k : z.slots = t.slots) : SlotsFollow ok s z := h.trans (.of_slots k)

theorem SlotsFollow.updRequest {f : Request → Request} (h : ∀ r, s.request n = some r → r.follows ok (f r)) :
    SlotsFollow ok s (s.updRequest n f) where
  issue m := by
    rw [slot_updRequest]
    split
    · next e => rw [e]
    · rfl
  request m q hq := by
    rw [request_updRequest] at hq
    split at hq
    · next e =>
      obtain ⟨r, hr, rfl⟩ := Option.map_eq_some_iff.1 hq
      exact ⟨r, e ▸ hr, h r hr⟩
    · exact ⟨q, hq, .refl ok q⟩

theorem SlotsFollow.freeSlotOf (s : State) (n : SlotId) : SlotsFollow ok s (s.freeSlotOf n) where
  issue m := issue_freeSlotOf s n m
  request m q hq := by
    rw [request_freeSlotOf, Option.ite_none_left_eq_some] at hq
    exact ⟨q, hq.2, .refl ok q⟩

theorem SlotsFollow.completeSlot {x : Result} (hx : ok x) (s : State) (n : SlotId) :
    SlotsFollow ok s (s.completeSlot n x) where
  issue m := issue_completeSlot s n m x
  request m q hq := by
    rw [request_completeSlot] at hq
    split at hq
    · next e =>
      obtain ⟨r, hr, hc⟩ := Option.bind_eq_some_iff.1 hq
      exact ⟨r, e ▸ hr, .completed hx hc⟩
    · exact ⟨q, hq, .refl ok q⟩

/-! ### The law of the pool for a given ACTIVE slot -/

/-- The law of the slot pool, with the one ACTIVE slot named (R1, R6, R18, R22, R30). -/
structure State.poolLawFor (s : State) (w : Option SlotId) : Prop where
  nodup : ∀ p, (s.list p).Nodup
  listed : ∀ p n, n ∈ s.list p ↔ ∃ r, s.request n = some r ∧ r.owner = p ∧ r.listed = true
  marked : ∀ n r, s.request n = some r → r.orphan = true ∨ r.abortPending = true → r.state = .active
  active : ∀ n, (∃ r, s.request n = some r ∧ r.state = .active) ↔ w = some n

/-- The slot whose transfer an engine performs (R30). -/
def Engine.slot : Engine → Option SlotId
  | .transfer ⟨.request n, _, _, _, _, _⟩ => some n
  | .transfer ⟨.poll _ _ _ _, _, _, _, _, _⟩ | .transfer ⟨.probe _ _ _, _, _, _, _, _⟩ | .idle | .recovery _ => none

/-- The slot of a piece of work. -/
def Work.slot : Work → Option SlotId
  | .request n => some n
  | .poll _ _ _ _ | .probe _ _ _ => none

theorem slot_transfer (f : Transfer) : (Engine.transfer f).slot = f.work.slot := by
  obtain ⟨work, -⟩ := f
  cases work <;> rfl

theorem Engine.slot_eq_some {g : Engine} : g.slot = some n ↔ ∃ f, g = .transfer f ∧ f.work = .request n := by
  cases g with
  | idle => simp [Engine.slot]
  | recovery b => simp [Engine.slot]
  | transfer f =>
    rw [slot_transfer]
    cases hw : f.work <;> simp [Work.slot, hw]

theorem poolLaw_iff : s.poolLaw ↔ s.poolLawFor s.engine.slot := by
  simp only [State.poolLaw, ← Engine.slot_eq_some]
  exact ⟨fun ⟨hnodup, hlist, hmark, hact⟩ => ⟨hnodup, hlist, hmark, hact⟩, fun h => ⟨h.nodup, h.listed, h.marked, h.active⟩⟩

theorem State.poolLawFor.listLaw (h : s.poolLawFor w) : s.listLaw :=
  ⟨h.nodup, fun p n hn => by
    obtain ⟨r, hr, ho, -⟩ := (h.listed p n).1 hn
    exact ⟨r, hr, ho⟩⟩

theorem State.poolLawFor.of_fields (h : s.poolLawFor w) (hr : t.slots = s.slots) (hl : t.lists = s.lists) :
    t.poolLawFor w := by
  have hreq : t.request = s.request := request_of_slots hr
  have hlist : t.list = s.list := list_of_lists hl
  exact ⟨hlist ▸ h.nodup, hreq ▸ hlist ▸ h.listed, hreq ▸ h.marked, hreq ▸ h.active⟩

/-- A QUEUED slot is not the ACTIVE one. -/
theorem State.poolLawFor.ne_of_queued (h : s.poolLawFor w) (hr : s.request n = some r) (hq : r.state = .queued) :
    w ≠ some n := fun e => by
  obtain ⟨q, hq', hact⟩ := (h.active n).2 e
  rw [hr, Option.some.injEq] at hq'
  rw [← hq', hq] at hact
  cases hact

/-- A slot leaves the lists for good or as an orphan. -/
theorem State.poolLawFor.drop {o : Option Request} (h : s.poolLawFor w) (hl : ∀ q, t.list q = (s.list q).filter (· != n))
    (hr : ∀ m, t.request m = if m = n then o else s.request m)
    (ho : ∀ q, o = some q → q.listed = false ∧ (q.orphan = true ∨ q.abortPending = true → q.state = .active))
    (hv : ∀ m, v = some m ↔ if m = n then ∃ q, o = some q ∧ q.state = .active else w = some m) : t.poolLawFor v where
  nodup p := (hl p) ▸ (h.nodup p).filter _
  listed p m := by
    rw [hl, List.mem_filter, h.listed, hr, bne_iff_ne]
    by_cases e : m = n
    · simp only [e, ne_eq, not_true, and_false, if_true, false_iff]
      rintro ⟨q, hq, -, hlisted⟩
      rw [(ho q hq).1] at hlisted
      cases hlisted
    · simp [e]
  marked m q hq := by
    rw [hr] at hq
    split at hq
    · exact (ho q hq).2
    · exact h.marked m q hq
  active m := by
    rw [hv, hr]
    split
    · rfl
    · exact h.active m

/-- A request is rewritten in its place. -/
theorem State.poolLawFor.rewrite {q : Request} (h : s.poolLawFor w) (hl : t.list = s.list) (hn : s.request n = some r)
    (hr : ∀ m, t.request m = if m = n then some q else s.request m) (hown : q.owner = r.owner)
    (hlisted : q.listed = r.listed) (hmark : q.orphan = true ∨ q.abortPending = true → q.state = .active)
    (hv : ∀ m, v = some m ↔ if m = n then q.state = .active else w = some m) : t.poolLawFor v where
  nodup := hl ▸ h.nodup
  listed p m := by
    rw [hl, h.listed, hr]
    by_cases e : m = n
    · simp [e, hn, hown, hlisted]
    · simp [e]
  marked m k hk := by
    rw [hr] at hk
    split at hk
    · cases hk
      exact hmark
    · exact h.marked m k hk
  active m := by
    rw [hv, hr]
    by_cases e : m = n
    · simp [e]
    · simpa [e] using h.active m

/-- One place taken from the ACTIVE slot's, told by cases. -/
theorem slot_unless (h : w ≠ some n) (m : SlotId) : w = some m ↔ if m = n then False else w = some m := by
  split
  · next e => simpa [e] using h
  · rfl

theorem State.poolLawFor.freeSlotOf (h : s.poolLawFor w) (hne : w ≠ some n) : (s.freeSlotOf n).poolLawFor w := by
  cases hr : s.request n with
  | none => exact h.of_fields (by simp [State.freeSlotOf, hr]) (by simp [State.freeSlotOf, hr])
  | some r =>
    exact h.drop (o := none) (fun q => by rw [list_freeSlotOf s hr, filter_owner_eq h.listLaw hr])
      (fun m => request_freeSlotOf s n m) (by simp) (by simpa using slot_unless hne)

/-- A completed request waits no more, and carries no mark (R13, R23). -/
theorem Request.completed_settled {x : Result} {q : Request} (hc : r.completed x = some q) :
    q.listed = false ∧ q.orphan = false ∧ q.abortPending = false ∧ q.state = .done x := by
  simp only [Request.completed, Option.ite_none_left_eq_some, Option.some.injEq, Bool.or_eq_true, not_or,
    Bool.not_eq_true] at hc
  obtain ⟨⟨horphan, -⟩, rfl⟩ := hc
  exact ⟨rfl, horphan, rfl, rfl⟩

theorem State.poolLawFor.completeSlot (h : s.poolLawFor w) (x : Result) (hv : ∀ m, v = some m ↔ m ≠ n ∧ w = some m) :
    (s.completeSlot n x).poolLawFor v := by
  cases hr : s.request n with
  | none =>
    have hvw : v = w := Option.ext fun m => by
      rw [hv]
      refine and_iff_right_of_imp fun hw e => ?_
      obtain ⟨q, hq, -⟩ := (h.active n).2 (e ▸ hw)
      rw [hr] at hq
      cases hq
    exact hvw ▸ h.of_fields (by simp [State.completeSlot, hr]) (by simp [State.completeSlot, hr])
  | some r =>
    refine h.drop (o := r.completed x) (fun q => by rw [list_completeSlot hr, filter_owner_eq h.listLaw hr])
      (fun m => by rw [request_completeSlot, hr]; rfl) (fun q hq => ?_) fun m => ?_
    · obtain ⟨hlisted, horphan, habort, -⟩ := Request.completed_settled hq
      exact ⟨hlisted, by simp [horphan, habort]⟩
    · rw [hv]
      split
      · next e =>
        refine iff_of_false (fun hm => hm.1 e) ?_
        rintro ⟨q, hq, hact⟩
        obtain ⟨-, -, -, hdone⟩ := Request.completed_settled hq
        rw [hdone] at hact
        cases hact
      · next e => simp [e]

theorem State.poolLawFor.completeOther (h : s.poolLawFor w) (hne : w ≠ some n) (x : Result) :
    (s.completeSlot n x).poolLawFor w :=
  h.completeSlot x fun m => (slot_unless hne m).trans (by by_cases e : m = n <;> simp [e])

theorem State.poolLawFor.completeActive (h : s.poolLawFor (some n)) (x : Result) :
    (s.completeSlot n x).poolLawFor none :=
  h.completeSlot x fun m => by simp [eq_comm]

/-! ### What keeps the pool -/

/-- The slots go on, and the law of the pool is kept whichever slot is ACTIVE. -/
structure KeepsPool (ok : Result → Prop) (s t : State) : Prop extends SlotsFollow ok s t where
  law : ∀ w, s.poolLawFor w → t.poolLawFor w

theorem KeepsPool.of_fields (h : t.slots = s.slots ∧ t.lists = s.lists) : KeepsPool ok s t :=
  ⟨.of_slots h.1, fun _ hl => hl.of_fields h.1 h.2⟩

theorem KeepsPool.refl (ok : Result → Prop) (s : State) : KeepsPool ok s s := .of_fields ⟨rfl, rfl⟩

theorem KeepsPool.trans (h : KeepsPool ok s t) (k : KeepsPool ok t z) : KeepsPool ok s z :=
  ⟨h.toSlotsFollow.trans k.toSlotsFollow, fun w hw => k.law w (h.law w hw)⟩

theorem KeepsPool.after (h : KeepsPool ok s t) (k : z.slots = t.slots ∧ z.lists = t.lists) : KeepsPool ok s z :=
  h.trans (.of_fields k)

theorem KeepsPool.ite {c : Prop} [Decidable c] (h : KeepsPool ok s t) (k : KeepsPool ok s z) :
    KeepsPool ok s (if c then t else z) := by
  split
  · exact h
  · exact k

theorem KeepsPool.foldl {β : Type} {f : State → β → State} (l : List β) (hf : ∀ a b, KeepsPool ok a (f a b)) (s : State) :
    KeepsPool ok s (l.foldl f s) :=
  List.foldlRecOn _ _ (KeepsPool.refl ok s) fun a ha b _ => ha.trans (hf a b)

/-- A request that changes in its place, and stays ACTIVE or not as it was. -/
theorem KeepsPool.updRequest {f : Request → Request} (h : ∀ r, s.request n = some r → r.follows ok (f r)
      ∧ (f r).listed = r.listed ∧ ((f r).state = .active ↔ r.state = .active)
      ∧ ((f r).orphan = true ∨ (f r).abortPending = true → r.orphan = true ∨ r.abortPending = true ∨ r.state = .active)) :
    KeepsPool ok s (s.updRequest n f) := by
  refine ⟨.updRequest fun r hr => (h r hr).1, fun w hw => ?_⟩
  cases hr : s.request n with
  | none =>
    have hreq : (s.updRequest n f).request = s.request := funext fun m => by
      rw [request_updRequest, hr]
      split
      · next e => rw [e, hr]; rfl
      · rfl
    have hlist : (s.updRequest n f).list = s.list := list_updRequest s n f
    exact ⟨hlist ▸ hw.nodup, hreq ▸ hlist ▸ hw.listed, hreq ▸ hw.marked, hreq ▸ hw.active⟩
  | some r =>
    obtain ⟨hfollows, hlisted, hactive, hmark⟩ := h r hr
    refine hw.rewrite (list_updRequest s n f) hr (fun m => by rw [request_updRequest, hr]; rfl) hfollows.owner hlisted
      (fun hm => hactive.2 ?_) fun m => ?_
    · rcases hmark hm with hm | hm | hm
      · exact hw.marked n r hr (.inl hm)
      · exact hw.marked n r hr (.inr hm)
      · exact hm
    · split
      · next e => rw [e, ← hw.active, hactive]; simp [hr]
      · rfl

/-! ### What follows, and touches neither slots nor lists -/

theorem KeepsPool.updTarget {i : TargetId} {f : Target → Target} (h : KeepsPool ok s t) : KeepsPool ok s (t.updTarget i f) :=
  h.after (by simp)

theorem KeepsPool.failEntries {a : Byte} (h : KeepsPool ok s t) : KeepsPool ok s (t.failEntries a) := h.after (by simp)

theorem KeepsPool.returnEntries {a : Byte} (h : KeepsPool ok s t) : KeepsPool ok s (t.returnEntries a) := h.after (by simp)

theorem KeepsPool.scheduleProbe {i : TargetId} (h : KeepsPool ok s t) : KeepsPool ok s (t.scheduleProbe i) :=
  h.after (by simp)

theorem KeepsPool.offerTargetState {i : TargetId} (h : KeepsPool ok s t) : KeepsPool ok s (t.offerTargetState i) :=
  h.after (by simp)

theorem KeepsPool.offer {m : Notice} (h : KeepsPool ok s t) : KeepsPool ok s (t.offer m p) := h.after (by simp)

theorem KeepsPool.grantNext {i : TargetId} (h : KeepsPool ok s t) : KeepsPool ok s (t.grantNext i) := h.after (by simp)

section

/-! ### The operations that keep it (R14, R22, R36, R88, R90, R101, R160) -/

variable (hok : ∀ o, ok (Result.without o))

include hok

theorem KeepsPool.completeQueued (s : State) (p : Port) (c : Request → Bool) (o : TransferOutcome) :
    KeepsPool ok s (s.completeQueued p c o) := by
  refine ⟨List.foldlRecOn _ _ (SlotsFollow.refl ok s) fun a ha n _ => ha.trans (.completeSlot (hok o) a n), fun w hw => ?_⟩
  refine List.foldlRecOn (motive := fun a : State => a.poolLawFor w) _ _ hw fun a ha n hn => ha.completeOther ?_ _
  obtain ⟨-, hn⟩ := List.mem_filter.1 hn
  obtain ⟨r, hr, hc⟩ := (Option.any_eq_true _ _).1 hn
  exact hw.ne_of_queued hr (beq_iff_eq.1 (Bool.and_eq_true_iff.1 hc).1)

theorem KeepsPool.completeQueuedAll (s : State) (c : Request → Bool) (o : TransferOutcome) :
    KeepsPool ok s (s.completeQueuedAll c o) :=
  .foldl _ (fun a p => .completeQueued hok a p c o) s

theorem KeepsPool.completeIfDue (s : State) (p : Port) (n : SlotId) : KeepsPool ok s (s.completeIfDue p n) := by
  cases hd : s.notLockedDue p n with
  | false => rw [completeIfDue_of_not_due hd]; exact .refl ok s
  | true =>
    rw [completeIfDue_of_due hd]
    obtain ⟨r, hr, hq, -⟩ := notLockedDue_iff.1 hd
    exact ⟨.completeSlot (hok _) s n, fun w hw => hw.completeOther (hw.ne_of_queued hr hq) _⟩

theorem KeepsPool.notLockedAll (s : State) : KeepsPool ok s s.notLockedAll :=
  .foldl _ (fun a p => .foldl _ (fun b n => .completeIfDue hok b p n) a) s

theorem KeepsPool.quarantineOnset (s : State) (i : TargetId) : KeepsPool ok s (s.quarantineOnset i) := by
  simp only [State.quarantineOnset]
  split
  · exact .refl ok s
  · exact (((KeepsPool.refl ok s).updTarget.trans (.completeQueuedAll hok _ _ _)).trans
      (.notLockedAll hok _)).failEntries.scheduleProbe.offerTargetState

theorem KeepsPool.quarantineEnd (s : State) (i : TargetId) : KeepsPool ok s (s.quarantineEnd i) := by
  simp only [State.quarantineEnd]
  split
  · exact .refl ok s
  · exact ((KeepsPool.refl ok s).updTarget.trans (.notLockedAll hok _)).returnEntries.offerTargetState

theorem KeepsPool.countFailure (s : State) (i : TargetId) : KeepsPool ok s (s.countFailure i) := by
  have counted {f : Target → Target} : KeepsPool ok s (s.updTarget i f) := (KeepsPool.refl ok s).updTarget
  simp only [State.countFailure]
  split
  · exact .refl ok s
  · split
    · exact counted
    · exact .ite (counted.trans (.quarantineOnset hok _ i)) (counted.updTarget.trans (.notLockedAll hok _)).offerTargetState
    · exact .ite (counted.trans (.quarantineOnset hok _ i)) counted

theorem KeepsPool.countSuccess (s : State) (i : TargetId) : KeepsPool ok s (s.countSuccess i) := by
  simp only [State.countSuccess]
  split
  · exact .refl ok s
  · split
    · exact .quarantineEnd hok s i
    · exact .of_fields (by simp)
    · exact .of_fields (by simp)

theorem KeepsPool.account (s : State) (a : Byte) (o : TransferOutcome) (b : Bool) : KeepsPool ok s (s.account a o b) := by
  simp only [State.account]
  split
  · exact .refl ok s
  · split
    · exact .countSuccess hok s _
    · exact .countFailure hok s _
    · exact .refl ok s

theorem KeepsPool.redeclare (s : State) (i : TargetId) (x : Target) (d : Declaration) :
    KeepsPool ok s (s.redeclare i x d) :=
  .ite (.trans (.of_fields (by simp)) (.quarantineOnset hok _ i)) (.of_fields (by simp))

theorem KeepsPool.release (s : State) (i : TargetId) (p : Port) (c : Option LockEnd) : KeepsPool ok s (s.release i p c) := by
  simp only [State.release]
  split
  · exact .refl ok s
  · have hlost := (KeepsPool.refl ok s).updTarget (i := i) (f := fun x => { x with lock := none })
    split
    · exact (hlost.trans (.completeQueued hok _ p _ .lockLost)).offer.grantNext
    · exact (hlost.trans (.completeQueued hok _ p _ .lockLost)).grantNext

theorem KeepsPool.endLock (s : State) (p : Port) (i : TargetId) : KeepsPool ok s (s.endLock p i) := by
  simp only [State.endLock]
  split
  · exact .refl ok s
  · exact .ite (.release hok s i p none) (.of_fields (by simp))

omit hok

/-- What a session end does to one slot (R22). -/
theorem KeepsPool.endSlot (s : State) (p : Port) (n : SlotId) : KeepsPool ok s (s.endSlot p n) := by
  cases hr : s.request n with
  | none => simpa only [State.endSlot, hr] using KeepsPool.refl ok s
  | some r =>
    by_cases hown : (r.owner == p) = true
    swap
    · simpa only [State.endSlot, hr, if_neg hown] using KeepsPool.refl ok s
    have freed (hstate : r.state ≠ .active) : KeepsPool ok s (s.freeSlotOf n) :=
      ⟨.freeSlotOf s n, fun w hw => hw.freeSlotOf fun e => by
        obtain ⟨q, hq, hact⟩ := (hw.active n).2 e
        exact hstate (Option.some.inj (hr.symm.trans hq) ▸ hact)⟩
    cases hs : r.state with
    | queued => simpa only [State.endSlot, hr, if_pos hown, hs] using freed (by simp [hs])
    | done x => simpa only [State.endSlot, hr, if_pos hown, hs] using freed (by simp [hs])
    | active =>
      rw [beq_iff_eq] at hown
      simp only [State.endSlot, hr, hown, beq_self_eq_true, if_true, hs]
      refine ⟨SlotsFollow.trans (.of_slots (by simp)) (.updRequest fun q _ => .of_same rfl rfl rfl (.inl rfl)), fun w hw => ?_⟩
      refine hw.drop (n := n) (o := some { r with orphan := true }) (fun q => ?_) (fun m => by simp [hr]) ?_ fun m => ?_
      · have hfilter := filter_owner_eq hw.listLaw hr q
        rw [hown] at hfilter
        rw [list_updRequest, list_unlist, ← hfilter]
        split
        · next e => rw [e]
        · rfl
      · rintro q hq
        cases hq
        exact ⟨by simp [Request.listed, hs], fun _ => hs⟩
      · split
        · next e => simp [e, ← hw.active, hr, hs]
        · rfl

theorem KeepsPool.endSlots (s : State) (p : Port) : KeepsPool ok s (s.endSlots p) :=
  .foldl _ (fun a n => .endSlot a p n) s

include hok

theorem KeepsPool.endLocks (s : State) (p : Port) : KeepsPool ok s (s.endLocks p) :=
  .foldl _ (fun a i => .endLock hok a p i) s

theorem KeepsPool.endSession (s : State) (p : Port) : KeepsPool ok s (s.endSession p) :=
  ((KeepsPool.endSlots s p).trans (.endLocks hok _ p)).after (by simp [State.endSession])

end

/-! ### Aging (R40, R41) -/

theorem KeepsPool.ageOne (s : State) (x : Waiting) : KeepsPool ok s (s.ageOne x) := by
  cases x with
  | slot n =>
    refine .updRequest fun r _ => ?_
    rw [Request.agedQueued]
    split
    · rw [Request.aged]
      split
      · exact ⟨.of_same rfl rfl rfl (.inl rfl), rfl, Iff.rfl, .imp_right .inl⟩
      · exact ⟨.refl ok r, rfl, Iff.rfl, .imp_right .inl⟩
    · exact ⟨.refl ok r, rfl, Iff.rfl, .imp_right .inl⟩
  | poll e => exact .of_fields (by simp [State.ageOne])
  | probe i => exact .of_fields (by simp [State.ageOne])

theorem KeepsPool.ageAll (s : State) : KeepsPool ok s s.ageAll :=
  ((KeepsPool.foldl _ (fun a n => .ageOne a (.slot n)) s).trans (.foldl _ (fun a e => .ageOne a (.poll e)) _)).trans
    (.foldl _ (fun a i => .ageOne a (.probe i)) _)

end Sys2Proof.Machine

/-! ## The slots through selections, reports and losses

The operations that move the engine as well (R12, R44, R45, R119): every request goes on, and a result is that of a
completion without a transfer or the one reported. -/

namespace Sys2Proof.Machine

open Sys2Proof

variable {s t : State} {ok : Result → Prop}

/-! ### What follows, and touches no slot -/

theorem SlotsFollow.setEngine {g : Engine} (h : SlotsFollow ok s t) : SlotsFollow ok s (t.setEngine g) := h.after (by simp)

theorem SlotsFollow.setMonitor {m : Monitor} (h : SlotsFollow ok s t) : SlotsFollow ok s (t.setMonitor m) :=
  h.after (by simp)

theorem SlotsFollow.offerTo {m : Notice} {ps : List Port} (h : SlotsFollow ok s t) : SlotsFollow ok s (t.offerTo m ps) :=
  h.after (by simp)

/-! ### Selection -/

theorem SlotsFollow.startWork (s : State) (w : Work) : SlotsFollow ok s (s.startWork w) := by
  cases w with
  | poll e i k m => exact .of_slots (by simp [State.startWork])
  | probe i a m => exact .of_slots (by simp [State.startWork])
  | request n =>
    simp only [State.startWork]
    split
    · exact .refl ok s
    · exact .setEngine (.updRequest fun r _ => .of_same rfl rfl rfl (.inr (by simp)))

theorem SlotsFollow.select (s : State) : SlotsFollow ok s s.select := by
  simp only [State.select]
  split
  · split
    · exact .refl ok s
    · split
      · exact .refl ok s
      · refine SlotsFollow.trans ?_ (.startWork _ _)
        exact .of_slots rfl
  · exact .refl ok s

theorem SlotsFollow.countAttempt (s : State) (f : Transfer) : SlotsFollow ok s (s.countAttempt f) := by
  simp only [State.countAttempt]
  split
  · exact .setEngine (.updRequest fun r _ => .of_same rfl rfl rfl (.inl rfl))
  · exact .of_slots (by simp)

section

variable (hok : ∀ o, ok (Result.without o))

include hok

theorem SlotsFollow.settle (h : SlotsFollow ok s t) : SlotsFollow ok s t.settle :=
  h.trans ((KeepsPool.notLockedAll hok t).toSlotsFollow.trans (.select _))

/-! ### Reports (R119) -/

theorem SlotsFollow.deliver {w : Work} {r : Report} (h : SlotsFollow ok s t)
    (hr : ∀ n, w = .request n → ok ⟨r.outcome, r.bytesDone, r.data⟩) : SlotsFollow ok s (t.deliver w r) := by
  cases w with
  | request n =>
    simp only [State.deliver]
    split
    · exact h
    · exact h.trans (.trans (.completeSlot (hr n rfl) t n) (KeepsPool.account hok _ _ _ _).toSlotsFollow)
  | poll e i k m =>
    exact h.trans (SlotsFollow.trans (.of_slots (by simp)) (KeepsPool.account hok _ k.addr r.outcome r.addressed).toSlotsFollow)
  | probe i a m => exact (h.trans (KeepsPool.account hok t a r.outcome r.addressed).toSlotsFollow).after (by simp [State.deliver])

theorem SlotsFollow.finishTransfer {w : Work} {r : Report} (s : State)
    (hr : ∀ n, w = .request n → ok ⟨r.outcome, r.bytesDone, r.data⟩) : SlotsFollow ok s (s.finishTransfer w r) :=
  .settle hok (.deliver hok (.of_slots (by simp)) hr)

theorem SlotsFollow.nackAddress (s : State) (f : Transfer) : SlotsFollow ok s (s.nackAddress f) :=
  .ite (.of_slots (by simp)) (.finishTransfer hok s fun _ _ => hok _)

theorem SlotsFollow.endTransfer (s : State) (f : Transfer) (how : TransferEnd)
    (hr : ∀ n sh rep, f.work = .request n → s.shape f.work = some sh →
      sh.report (s.abortPending f.work) (s.abortStands f) how = some rep → ok ⟨rep.outcome, rep.bytesDone, rep.data⟩) :
    SlotsFollow ok s (s.endTransfer f how) := by
  simp only [State.endTransfer]
  split
  · exact .nackAddress hok s f
  all_goals
    split
    · exact .refl ok s
    · next rep h =>
      obtain ⟨sh, hsh, hrep⟩ := Option.bind_eq_some_iff.1 h
      exact .finishTransfer hok s fun n hn => hr n sh rep hn hsh hrep

/-! ### Losses (R44, R45, R124) -/

theorem SlotsFollow.loseRequest {b : Nat} (s : State) (n : SlotId) (a : Bool) (hb : ok ⟨.busContended, b, []⟩) :
    SlotsFollow ok s (s.loseRequest n b a) := by
  simp only [State.loseRequest]
  split
  · exact .refl ok s
  · have hcounted : SlotsFollow ok s (s.updRequest n fun r => { r with losses := r.losses + 1 }) :=
      .updRequest fun r _ => .of_same rfl rfl rfl (.inl rfl)
    refine .ite (.deliver hok hcounted fun _ _ => hok _) (.ite (.deliver hok hcounted fun _ _ => hb)
      (.ite (hcounted.trans (.completeSlot (hok _) _ n)) (.ite ?_ (.deliver hok hcounted fun _ _ => hb))))
    refine hcounted.trans (.updRequest fun r _ => ?_)
    have hqueued : r.follows ok { r with state := .queued } := .of_same rfl rfl rfl (.inr (by simp))
    exact hqueued.trans (aged_follows _ _)

theorem SlotsFollow.loseTransfer {b : Nat} (s : State) (w : Work) (l : Lines) (a : Bool) (hb : ok ⟨.busContended, b, []⟩) :
    SlotsFollow ok s (s.loseTransfer w l b a) := by
  have hlost : SlotsFollow ok s ((s.setEngine .idle).reachForeign l) := .of_slots (by simp)
  refine .settle hok ?_
  cases w with
  | request n => exact hlost.trans (.loseRequest hok _ n a hb)
  | poll e i k m => exact .ite (hlost.after (by simp)) (.deliver hok hlost fun _ _ => hok _)
  | probe i x m => exact .ite (hlost.after (by simp [State.reprobe])) (.deliver hok hlost fun _ _ => hok _)

theorem SlotsFollow.stretchExpires {f : Transfer} {g : Progress} (s : State)
    (hr : ∀ n, f.work = .request n → ok ⟨.stretchTimeout, g.written + g.read.length, g.read⟩) :
    SlotsFollow ok s (s.stretchExpires f g) :=
  .settle hok (.deliver hok (.of_slots (by simp)) hr)

/-! ### The monitor's moves -/

theorem SlotsFollow.completeQueuedAll {c : Request → Bool} {o : TransferOutcome} (h : SlotsFollow ok s t) :
    SlotsFollow ok s (t.completeQueuedAll c o) :=
  h.trans (KeepsPool.completeQueuedAll hok t c o).toSlotsFollow

theorem SlotsFollow.enterFaulted (h : SlotsFollow ok s t) : SlotsFollow ok s t.enterFaulted :=
  .ite (.completeQueuedAll hok h.setMonitor.setEngine)
    (.offerTo (.setMonitor (.completeQueuedAll hok h.setMonitor.setEngine)))

theorem SlotsFollow.endAttempt (s : State) (l : Lines) : SlotsFollow ok s (s.endAttempt l) :=
  .ite (.settle hok (.of_slots (by simp))) (.ite (.enterFaulted hok (.of_slots (by simp))) (.of_slots (by simp)))

theorem SlotsFollow.hangExpires (s : State) : SlotsFollow ok s s.hangExpires := by
  simp only [State.hangExpires]
  split
  · exact .ite (.of_slots (by simp)) (.of_slots (by simp))
  · exact .ite (.settle hok (.of_slots (by simp))) (.of_slots (by simp))
  · exact .ite (.of_slots (by simp)) (.of_slots (by simp))
  all_goals exact .of_slots (by simp)

theorem SlotsFollow.retimeHang (s : State) : SlotsFollow ok s s.retimeHang := by
  simp only [State.retimeHang]
  split
  · exact .refl ok s
  · exact .ite (.trans (.of_slots (by simp)) (.hangExpires hok _)) (.of_slots (by simp))

theorem SlotsFollow.observeStart (s : State) : SlotsFollow ok s s.observeStart := by
  refine .ite ?_ (.refl ok s)
  split
  · exact .loseTransfer hok s _ _ _ (hok _)
  · exact .ite (.of_slots (by simp)) (.of_slots (by simp))

theorem SlotsFollow.observeStop (s : State) : SlotsFollow ok s s.observeStop := by
  refine .ite ?_ (.refl ok s)
  split
  case h_4 => exact .of_slots (by simp)
  case h_1 | h_2 | h_3 => exact .settle hok (.of_slots (by simp))
  all_goals exact .refl ok s

theorem SlotsFollow.observeOther (s : State) (l : Lines) : SlotsFollow ok s (s.observeOther l) := by
  simp only [State.observeOther]
  split
  · exact .ite (.of_slots (by simp)) (.of_slots (by simp))
  · split
    · exact .loseTransfer hok s _ _ _ (hok _)
    · exact .of_slots (by simp)
  all_goals exact .of_slots (by simp)

theorem SlotsFollow.observeChange (s : State) (c : LineChange) : SlotsFollow ok s (s.observeChange c) :=
  .ite (.refl ok s) (.ite (.observeStart hok s) (.ite (.observeStop hok s) (.observeOther hok s _)))

end

end Sys2Proof.Machine

/-! ## The law of the bus monitor, and with it the law of the pool

Engine and monitor move together (Table 6-2), and the slot that is ACTIVE is the engine's (R30). An event takes both from
one agreed state to the next; what it does to the pool in between is told for the ACTIVE slot it began with. -/

namespace Sys2Proof.Machine

open Sys2Proof

variable {s t z : State} {n : SlotId} {w : Work} {f : Transfer}

/-- Every result. -/
def Result.any (_ : Result) : Prop := True

theorem Result.any_without (o : TransferOutcome) : Result.any (Result.without o) := trivial

/-! ### Where the monitor stands -/

theorem busLaw_of_fields (he : t.engine = s.engine) (hm : t.monitor = s.monitor) (h : s.busLaw) : t.busLaw := by
  rwa [State.busLaw, State.engineAgrees, he, hm]

/-- In FREE, with every timer stopped, the engine rests or waits to start a transfer (R113, R115). -/
theorem busLaw_inFree (hm : z.monitor = Monitor.inFree)
    (he : z.engine = .idle ∨ ∃ f, z.engine = .transfer f ∧ f.stretch = none) : z.busLaw := by
  simp [State.busLaw, State.engineAgrees, hm, Monitor.inFree, he, linesHigh, Config.faultAttempts]

/-- In FOREIGN the engine rests and the hang timer may run (R116). -/
theorem busLaw_inForeign {hang : Option Timer} {l : Lines} (hm : z.monitor = ⟨.foreign, 0, false, hang, none, none, l⟩)
    (he : z.engine = .idle) : z.busLaw := by
  simp [State.busLaw, State.engineAgrees, hm, he, Config.faultAttempts]

/-- As a recovery attempt begins, with a count that goes with the flag (R117, R125, R129, R131). -/
theorem busLaw_inAttempt {failed : Nat} {known : Bool} {l : Lines}
    (hm : z.monitor = ⟨.recovering, failed, known, none, none, none, l⟩) (he : z.engine = .recovery true)
    (hknown : known = true ↔ Config.faultAttempts ≤ failed) (hmax : failed ≤ Config.countMax) : z.busLaw := by
  simp [State.busLaw, State.engineAgrees, hm, he, hknown, hmax]

/-- In FAULTED the flag stands, with at least three attempts counted, and the retry timer runs (R130). -/
theorem busLaw_inFault {failed : Nat} {retry : Timer} {l : Lines}
    (hm : z.monitor = ⟨.faulted, failed, true, none, none, some retry, l⟩) (he : z.engine = .idle)
    (hle : Config.faultAttempts ≤ failed) (hmax : failed ≤ Config.countMax) : z.busLaw := by
  simp [State.busLaw, State.engineAgrees, hm, he, hle, hmax]

theorem monitor_reachFree (s : State) : s.reachFree.monitor = Monitor.inFree := by
  rw [reachFree_eq_madeFree, State.madeFree]
  split <;> simp

theorem monitor_reachForeign_eq (s : State) (l : Lines) :
    (s.reachForeign l).monitor = Monitor.inForeign s.now s.params.hangLimit l := by
  rw [reachForeign_eq_madeForeign, State.madeForeign]
  split <;> simp

/-! ### What keeps both laws -/

/-- The law of the monitor is kept, and under it the law of the pool. -/
structure KeepsBus (s t : State) : Prop where
  bus : s.busLaw → t.busLaw
  pool : s.busLaw → s.poolLaw → t.poolLaw

theorem KeepsBus.trans (h : KeepsBus s t) (k : KeepsBus t z) : KeepsBus s z :=
  ⟨fun hb => k.bus (h.bus hb), fun hb hp => k.pool (h.bus hb) (h.pool hb hp)⟩

theorem KeepsBus.of_pool (h : KeepsPool Result.any s t) (hg : t.engine = s.engine ∧ t.monitor = s.monitor) :
    KeepsBus s t :=
  ⟨busLaw_of_fields hg.1 hg.2, fun _ hp => poolLaw_iff.2 (hg.1 ▸ h.law _ (poolLaw_iff.1 hp))⟩

theorem KeepsBus.of_fields
    (h : t.slots = s.slots ∧ t.lists = s.lists ∧ t.engine = s.engine ∧ t.monitor = s.monitor) : KeepsBus s t :=
  .of_pool (.of_fields ⟨h.1, h.2.1⟩) h.2.2

theorem KeepsBus.refl (s : State) : KeepsBus s s := .of_fields ⟨rfl, rfl, rfl, rfl⟩

theorem KeepsBus.ite {c : Prop} [Decidable c] (h : KeepsBus s t) (k : KeepsBus s z) : KeepsBus s (if c then t else z) := by
  split
  · exact h
  · exact k

/-- An event of the monitor that leaves the engine's slot what it was. -/
theorem KeepsBus.of_move (h : KeepsPool Result.any s t) (hbus : s.busLaw → t.busLaw)
    (hslot : s.busLaw → t.engine.slot = s.engine.slot) : KeepsBus s t :=
  ⟨hbus, fun hb hp => poolLaw_iff.2 (hslot hb ▸ h.law _ (poolLaw_iff.1 hp))⟩

theorem State.poolLawFor.setEngine {v : Option SlotId} {g : Engine} (h : s.poolLawFor v) : (s.setEngine g).poolLawFor v :=
  h.of_fields (by simp) (by simp)

/-! ### Selection (R29, R30) -/

theorem newTransfer_fields (s : State) (w : Work) (a : Byte) :
    (s.newTransfer w a).work = w ∧ (s.newTransfer w a).stretch = none := by
  simp only [State.newTransfer]
  split <;> exact ⟨rfl, rfl⟩

/-- Work that is started has the engine, with no stretch under way (R30, R112). -/
theorem startWork_engine (h : ∀ n, w = .request n → s.request n ≠ none) :
    ∃ f, (s.startWork w).engine = .transfer f ∧ f.work = w ∧ f.stretch = none := by
  cases w with
  | poll e i k m => exact ⟨_, rfl, newTransfer_fields s _ _⟩
  | probe i a m => exact ⟨_, rfl, newTransfer_fields s _ _⟩
  | request n =>
    obtain ⟨r, hr⟩ := Option.ne_none_iff_exists'.1 (h n rfl)
    exact ⟨_, by simp only [State.startWork, hr]; rfl, newTransfer_fields s _ _⟩

/-- The request that a participant offers is QUEUED (R31). -/
theorem queued_of_candidate {x : Participant} (h : s.candidate x = some (.request n)) :
    ∃ r, s.request n = some r ∧ r.state = .queued := by
  cases x with
  | maintenance => exact absurd rfl (maintenanceCandidate_maint s h n)
  | host p =>
    simp only [State.candidate, Option.map_eq_some_iff, Work.request.injEq, exists_eq_right] at h
    exact headCandidate_queued s h

/-- A selection does nothing, or starts the work of a participant on an idle engine with the bus free (R29). -/
theorem select_cases (s : State) : s.select = s ∨ ∃ ps x w, s.engine = .idle ∧ s.monitor.state = .free
    ∧ s.candidate x = some w ∧ s.select = State.startWork { s with pointers := ps } w := by
  simp only [State.select]
  split
  · next hcan =>
    obtain ⟨he, hm⟩ : s.engine = .idle ∧ s.monitor.state = .free := by simpa [State.canSelect] using hcan
    split
    · exact .inl rfl
    · next c x _ =>
      split
      · exact .inl rfl
      · next w hw => exact .inr ⟨_, x, w, he, hm, hw, rfl⟩
  · exact .inl rfl

/-- A slot that is started becomes the ACTIVE one (R12). -/
theorem State.poolLawFor.startWork {r : Request} (h : s.poolLawFor none) (hr : s.request n = some r)
    (hq : r.state = .queued) : (s.startWork (.request n)).poolLawFor (some n) := by
  have hstart : s.startWork (.request n) = (s.updRequest n fun r => { r with state := .active, attempts := 0 }).setEngine
      (.transfer (s.newTransfer (.request n) r.desc.target)) := by simp only [State.startWork, hr]
  have horphan : r.orphan = false := Bool.eq_false_iff.2 fun e => by
    have := h.marked n r hr (.inl e)
    rw [hq] at this
    cases this
  rw [hstart]
  refine State.poolLawFor.setEngine ?_
  refine h.rewrite (q := { r with state := .active, attempts := 0 }) (list_updRequest s n _) hr
    (fun m => by rw [request_updRequest, hr]; rfl) rfl ?_ (fun _ => rfl) fun m => ?_
  · simp [Request.listed, hq, horphan]
  · split
    · next e => simp [e]
    · next e => simp [Ne.symm e]

theorem KeepsBus.select (s : State) : KeepsBus s s.select := by
  rcases select_cases s with h | ⟨ps, x, w, he, hm, hw, h⟩
  · rw [h]
    exact .refl s
  have hrequest (n : SlotId) (hn : w = .request n) : State.request { s with pointers := ps } n ≠ none := by
    obtain ⟨r, hr, -⟩ := queued_of_candidate (hn ▸ hw)
    exact fun e => by rw [show State.request { s with pointers := ps } n = s.request n from rfl, hr] at e; cases e
  obtain ⟨f, hf, hwork, hstretch⟩ := startWork_engine hrequest
  have hmonitor : (State.startWork { s with pointers := ps } w).monitor = s.monitor := by simp
  rw [h]
  refine ⟨fun hb => ?_, fun _ hp => ?_⟩
  · obtain ⟨-, hlines, hfault, hfaulted, hcount, hfailed, hmax, hhang, hidle, hretry⟩ := hb
    rw [State.busLaw, hmonitor, State.engineAgrees, hmonitor, hm, hf]
    refine ⟨.inr ⟨f, rfl, hstretch⟩, fun _ => hlines hm, hm ▸ hfault, hm ▸ hfaulted, hcount, hm ▸ hfailed, hmax, fun hs => ?_,
      hm ▸ hidle, hm ▸ hretry⟩
    rcases hhang hs with k | k | k
    · rw [hm] at k; cases k
    · rw [hm] at k; cases k
    · rw [he] at k; cases k
  · have hlaw : State.poolLawFor { s with pointers := ps } none := by
      have hidle := poolLaw_iff.1 hp
      rw [he] at hidle
      exact hidle.of_fields rfl rfl
    rw [poolLaw_iff, hf, slot_transfer, hwork]
    cases w with
    | request n =>
      obtain ⟨r, hr, hq⟩ := queued_of_candidate hw
      exact hlaw.startWork hr hq
    | poll e i k m => exact hlaw.of_fields (by simp [State.startWork]) (by simp)
    | probe i a m => exact hlaw.of_fields (by simp [State.startWork]) (by simp)

theorem KeepsBus.settle (h : KeepsBus s t) : KeepsBus s t.settle :=
  h.trans ((KeepsBus.of_pool (.notLockedAll Result.any_without t) (by simp)).trans (.select _))

/-! ### Reports and losses (R44, R45, R119) -/

/-- A report frees the ACTIVE slot or takes it to DONE (R13, R119). -/
theorem State.poolLawFor.deliver (h : s.poolLawFor w.slot) (r : Report) : (s.deliver w r).poolLawFor none := by
  have account (a : State) (addr : Byte) (ha : a.poolLawFor none) : (a.account addr r.outcome r.addressed).poolLawFor none :=
    (KeepsPool.account Result.any_without a addr r.outcome r.addressed).law _ ha
  cases w with
  | request n =>
    obtain ⟨q, hq, -⟩ := (h.active n).2 rfl
    simp only [State.deliver, hq]
    exact account _ _ (h.completeActive _)
  | poll e i k m => exact account _ _ (State.poolLawFor.of_fields (s := s) h (by simp) (by simp))
  | probe i a m => exact (account s a h).of_fields (by simp [State.deliver]) (by simp [State.deliver])

/-- A request whose transfer is lost waits again, is DONE, or is freed (R44, R45). -/
theorem State.poolLawFor.loseRequest (h : s.poolLawFor (some n)) (b : Nat) (a : Bool) :
    (s.loseRequest n b a).poolLawFor none := by
  obtain ⟨r, hr, hactive⟩ := (h.active n).2 rfl
  obtain ⟨counted, hcounted⟩ : ∃ c, c = s.updRequest n fun r => { r with losses := r.losses + 1 } := ⟨_, rfl⟩
  have hlaw : counted.poolLawFor (some n) := by
    have hkeeps : KeepsPool Result.any s counted :=
      hcounted ▸ .updRequest fun r _ => ⟨.of_same rfl rfl rfl (.inl rfl), rfl, Iff.rfl, .imp_right .inl⟩
    exact hkeeps.law _ h
  have hr' : counted.request n = some { r with losses := r.losses + 1 } := by simp [hcounted, hr]
  have delivered (rep : Report) : (counted.deliver (.request n) rep).poolLawFor none :=
    State.poolLawFor.deliver (w := .request n) hlaw rep
  simp only [State.loseRequest, hr, ← hcounted]
  split
  · exact delivered _
  · next habort =>
    split
    · exact delivered _
    · next horphan =>
      split
      · exact hlaw.completeActive _
      · split
        · have haged : (counted.requeue n).request n
              = some (Request.aged counted { r with losses := r.losses + 1, state := .queued }) := by
            simp [State.requeue, hr']
          obtain ⟨q, hq⟩ : ∃ q, q = Request.aged counted { r with losses := r.losses + 1, state := .queued } := ⟨_, rfl⟩
          have hfields : q.owner = r.owner ∧ q.state = .queued ∧ q.orphan = r.orphan ∧ q.abortPending = r.abortPending := by
            rw [hq, Request.aged]
            split <;> exact ⟨rfl, rfl, rfl, rfl⟩
          obtain ⟨hown, hqueued, hqo, hqa⟩ := hfields
          refine hlaw.rewrite (q := q) (list_updRequest counted n _) hr' (fun m => ?_) hown ?_ ?_ fun m => ?_
          · split
            · next e => rw [e, haged, hq]
            · next e => rw [State.requeue, request_updRequest, if_neg e]
          · simp [Request.listed, hqueued, hactive, horphan]
          · simp [hqo, hqa, horphan, habort]
          · split
            · simp [hqueued]
            · next e => simp [Ne.symm e]
        · exact delivered _

/-- A transfer that ends with its STOP leaves the engine at rest and the bus free (R115, R118). -/
theorem KeepsBus.finishTransfer (hf : s.engine = .transfer f) (r : Report) : KeepsBus s (s.finishTransfer f.work r) := by
  refine .settle ⟨fun _ => busLaw_inFree (by simp [monitor_reachFree]) (.inl (by simp)), fun _ hp => ?_⟩
  have hlaw := poolLaw_iff.1 hp
  rw [hf, slot_transfer] at hlaw
  have hfreed : ((s.setEngine .idle).reachFree).poolLawFor f.work.slot := hlaw.of_fields (by simp) (by simp)
  rw [poolLaw_iff]
  simpa [Engine.slot] using hfreed.deliver r

/-- A transfer that is lost leaves the engine at rest and the monitor in FOREIGN (R124). -/
theorem KeepsBus.loseTransfer (hf : s.engine = .transfer f) (l : Lines) (b : Nat) (a : Bool) :
    KeepsBus s (s.loseTransfer f.work l b a) := by
  have hlost (hp : s.poolLaw) : ((s.setEngine .idle).reachForeign l).poolLawFor f.work.slot := by
    have hlaw := poolLaw_iff.1 hp
    rw [hf, slot_transfer] at hlaw
    exact hlaw.of_fields (by simp) (by simp)
  have foreign (z : State) (hm : z.monitor = ((s.setEngine .idle).reachForeign l).monitor) (he : z.engine = .idle)
      (hp : s.poolLaw → z.poolLawFor none) : KeepsBus s z :=
    ⟨fun _ => busLaw_inForeign (hm.trans (monitor_reachForeign_eq _ l)) he, fun _ h => poolLaw_iff.2 (by
      rw [he]
      exact hp h)⟩
  refine .settle ?_
  cases hw : f.work with
  | request n =>
    refine foreign _ (by simp) (by simp) fun hp => ?_
    have := hlost hp
    rw [hw] at this
    exact State.poolLawFor.loseRequest this b a
  | poll e i k m =>
    refine .ite (foreign _ (by simp) (by simp) fun hp => ?_) (foreign _ (by simp) (by simp) fun hp => ?_)
    · exact (hw ▸ hlost hp).of_fields (by simp) (by simp)
    · exact (hw ▸ hlost hp).deliver _
  | probe i x m =>
    refine .ite (foreign _ (by simp) (by simp) fun hp => ?_) (foreign _ (by simp) (by simp) fun hp => ?_)
    · exact (hw ▸ hlost hp).of_fields (by simp) (by simp)
    · exact (hw ▸ hlost hp).deliver _

/-! ### Recovery and FAULTED (R117, R125, R128, R129, R130) -/

/-- Outside recovery and FAULTED no attempt is counted and no fault known (R113, R132). -/
theorem no_fault_of_busLaw (h : s.busLaw) (hm : s.monitor.state ≠ .faulted) (hr : s.monitor.state ≠ .recovering) :
    s.monitor.failed = 0 ∧ s.monitor.busFault = false := by
  obtain ⟨-, -, hfault, -, -, hfailed, -⟩ := h
  refine ⟨by_contra fun k => ?_, Bool.eq_false_iff.2 fun k => ?_⟩
  · exact (hfailed k).elim hm hr
  · exact (hfault k).elim hm hr

/-- An attempt begins where no slot is ACTIVE but one that is dealt with (R128). -/
theorem busLaw_beginAttempt (h : s.busLaw) : s.beginAttempt.busLaw := by
  obtain ⟨-, -, -, -, hcount, -, hmax, -⟩ := h
  exact busLaw_inAttempt rfl rfl hcount hmax

theorem busLaw_beginSequence (h : s.busLaw) (hm : s.monitor.state ≠ .faulted) (hr : s.monitor.state ≠ .recovering) :
    s.beginSequence.busLaw := by
  obtain ⟨-, hfault⟩ := no_fault_of_busLaw h hm hr
  exact busLaw_inAttempt (failed := 0) (known := s.monitor.busFault) rfl rfl
    (by simp [hfault, Config.faultAttempts]) (Nat.zero_le _)

/-- The engine performs no request outside FREE and OWNED (Table 6-2). -/
theorem slot_eq_none (h : s.busLaw) (hf : s.monitor.state ≠ .free) (ho : s.monitor.state ≠ .owned) :
    s.engine.slot = none := by
  have he := h.1
  rw [State.engineAgrees] at he
  cases hm : s.monitor.state <;> simp only [hm] at he hf ho
  case unknown | foreign | faulted => rw [he]; rfl
  case recovering =>
    obtain ⟨b, hb⟩ := he
    rw [hb]; rfl
  case free => exact absurd rfl hf
  case owned => exact absurd rfl ho

theorem KeepsBus.beginAttempt (hf : s.monitor.state ≠ .free) (ho : s.monitor.state ≠ .owned) : KeepsBus s s.beginAttempt :=
  .of_move (.of_fields (by simp)) busLaw_beginAttempt fun hb => (slot_eq_none hb hf ho).symm

theorem KeepsBus.stretchExpires {g : Progress} (hf : s.engine = .transfer f) (ho : s.monitor.state = .owned) :
    KeepsBus s (s.stretchExpires f g) := by
  refine .settle ⟨fun hb => ?_, fun hb hp => ?_⟩
  · exact busLaw_of_fields (by simp) (by simp) (busLaw_beginSequence hb (by simp [ho]) (by simp [ho]))
  · have hlaw := poolLaw_iff.1 hp
    rw [hf, slot_transfer] at hlaw
    have hbegun : s.beginSequence.poolLawFor f.work.slot := hlaw.of_fields (by simp) (by simp)
    have he : (s.beginSequence.deliver f.work ⟨.stretchTimeout, g.written + g.read.length, g.read, g.addressed⟩).engine
        = .recovery true := by simp; rfl
    rw [poolLaw_iff, he]
    exact hbegun.deliver _

/-- The bus is left FREE, the engine resting before and after it. -/
theorem KeepsBus.freed (hf : s.monitor.state ≠ .free) (ho : s.monitor.state ≠ .owned) :
    KeepsBus s ((s.setEngine .idle).reachFree).settle :=
  .settle (.of_move (.of_fields (by simp)) (fun _ => busLaw_inFree (monitor_reachFree _) (.inl (by simp))) fun hb => by
    rw [slot_eq_none hb hf ho]
    simp [Engine.slot])

theorem monitor_enterFaulted (s : State) : s.enterFaulted.monitor
    = ⟨.faulted, s.monitor.failed, true, none, none, some (s.timer s.params.faultRetry), s.monitor.lines⟩ := by
  simp only [State.enterFaulted]
  split
  · next h => simp [h]
  · simp

theorem engine_enterFaulted (s : State) : s.enterFaulted.engine = .idle := by
  simp only [State.enterFaulted]
  split <;> simp

theorem KeepsPool.enterFaulted (h : KeepsPool Result.any s t) : KeepsPool Result.any s t.enterFaulted := by
  have hcompleted (a : State) (ha : a.slots = t.slots ∧ a.lists = t.lists) :
      KeepsPool Result.any s (a.completeQueuedAll (fun _ => true) .busFault) :=
    (h.after ha).trans (.completeQueuedAll Result.any_without a _ _)
  simp only [State.enterFaulted]
  split
  · exact hcompleted _ (by simp)
  · refine KeepsPool.after (hcompleted _ ?_) (by simp; exact ⟨rfl, rfl⟩)
    simp

theorem recovering_of_engine {b : Bool} (h : s.busLaw) (he : s.engine = .recovery b) : s.monitor.state = .recovering := by
  have hagree := h.1
  rw [State.engineAgrees] at hagree
  cases hs : s.monitor.state <;> simp [hs, he] at hagree ⊢

/-- An attempt that failed before the third leaves the wait for the next (R129). -/
theorem busLaw_waits {failed : Nat} {l : Lines} (h : s.busLaw) (he : s.engine = .recovery true)
    (hfailed : failed = min (s.monitor.failed + 1) Config.countMax) (hlt : failed < Config.faultAttempts)
    (hm : z.monitor = { s.monitor with
      failed := failed, lines := l, hang := some (s.timer s.params.hangLimit) }) (hz : z.engine = .recovery false) :
    z.busLaw := by
  have hstate := recovering_of_engine h he
  obtain ⟨-, -, -, -, hcount, -, -, -, hidle, hretry⟩ := h
  have hold : ¬ Config.faultAttempts ≤ s.monitor.failed := by
    simp only [Config.faultAttempts, Config.countMax] at *
    omega
  have hfault : s.monitor.busFault = false := Bool.eq_false_iff.2 fun k => hold (hcount.1 k)
  simp only [hstate, reduceCtorEq, false_and, imp_false, iff_false] at hidle hretry
  simp only [Config.faultAttempts, Config.countMax] at *
  simp [State.busLaw, State.engineAgrees, hm, hz, hstate, hfault, hidle, hretry, Config.faultAttempts, Config.countMax, hlt]
  omega

/-- A recovery attempt ends in FREE, in the wait for the next, or in FAULTED (R128, R129, R130). -/
theorem KeepsBus.endAttempt (he : s.engine = .recovery true) (l : Lines) : KeepsBus s (s.endAttempt l) := by
  by_cases hb : s.busLaw
  swap
  · exact ⟨fun h => absurd h hb, fun h => absurd h hb⟩
  have hm := recovering_of_engine hb he
  have hslot (z : State) (hz : z.engine.slot = none) : z.engine.slot = s.engine.slot := by
    rw [hz, he]
    rfl
  simp only [State.endAttempt]
  split
  · exact .freed (by simp [hm]) (by simp [hm])
  · split
    · next hle =>
      refine .of_move (.enterFaulted (.of_fields (by simp))) (fun _ => ?_) fun _ => hslot _ ?_
      · exact busLaw_inFault (monitor_enterFaulted _) (engine_enterFaulted _) (by simpa using hle) (by simp)
      · rw [engine_enterFaulted]
        rfl
    · next hlt =>
      refine .of_move (.of_fields (by simp)) (fun _ => ?_) fun _ => hslot _ (by simp [Engine.slot])
      exact busLaw_waits (l := l) hb he rfl (Nat.lt_of_not_le hlt) (by simp) (by simp)

/-! ### The hang timer (R116, R117, R129) -/

/-- A stopped hang timer is in no one's way. -/
theorem busLaw_stopHang (h : s.busLaw) (hm : t.monitor = { s.monitor with hang := none }) (he : t.engine = s.engine) :
    t.busLaw := by
  obtain ⟨hagree, hlines, hfault, hfaulted, hcount, hfailed, hmax, -, hidle, hretry⟩ := h
  rw [State.busLaw, State.engineAgrees, hm, he]
  exact ⟨hagree, hlines, hfault, hfaulted, hcount, hfailed, hmax, by simp, hidle, hretry⟩

theorem KeepsBus.stopHang : KeepsBus s (s.setMonitor { s.monitor with hang := none }) :=
  .of_move (.of_fields (by simp)) (fun hb => busLaw_stopHang hb (by simp) (by simp)) fun _ => by simp

theorem KeepsBus.beginSequence (hf : s.monitor.state ≠ .faulted) (hr : s.monitor.state ≠ .recovering)
    (hfree : s.monitor.state ≠ .free) (ho : s.monitor.state ≠ .owned) : KeepsBus s s.beginSequence :=
  .of_move (.of_fields (by simp)) (fun hb => busLaw_beginSequence hb hf hr) fun hb => (slot_eq_none hb hfree ho).symm

/-- The monitor reaches FREE on an engine that rests (R116). -/
theorem KeepsBus.reachFree (hf : s.monitor.state = .unknown ∨ s.monitor.state = .foreign) : KeepsBus s s.reachFree := by
  refine .of_move (.of_fields (by simp)) (fun hb => busLaw_inFree (monitor_reachFree _) (.inl ?_)) fun _ => by simp
  have hagree := hb.1
  rw [State.engineAgrees] at hagree
  rcases hf with hf | hf <;> simpa [hf] using hagree

theorem KeepsBus.hangExpires (s : State) : KeepsBus s s.hangExpires := by
  have hstopped : KeepsBus s (s.setMonitor { s.monitor with hang := none }) := .stopHang
  simp only [State.hangExpires]
  split
  case h_1 hm => exact .ite hstopped (hstopped.trans (.beginSequence (by simp [hm]) (by simp [hm]) (by simp [hm]) (by simp [hm])))
  case h_2 hm =>
    refine .ite (.settle (hstopped.trans (.reachFree (by simp [hm])))) (hstopped.trans ?_)
    exact .beginSequence (by simp [hm]) (by simp [hm]) (by simp [hm]) (by simp [hm])
  case h_3 hm => exact .ite (hstopped.trans (.beginAttempt (by simp [hm]) (by simp [hm]))) hstopped
  all_goals exact hstopped

/-- A hang timer that runs may be set anew (R117). -/
theorem KeepsBus.retimeHang (s : State) : KeepsBus s s.retimeHang := by
  simp only [State.retimeHang]
  split
  · exact .refl s
  · next tm htm =>
    have hretimed : KeepsBus s (s.setMonitor { s.monitor with hang := some ⟨tm.setAt, s.params.hangLimit⟩ }) := by
      refine .of_move (.of_fields (by simp)) (fun hb => ?_) fun _ => by simp
      obtain ⟨hagree, hlines, hfault, hfaulted, hcount, hfailed, hmax, hhang, hidle, hretry⟩ := hb
      exact ⟨hagree, hlines, hfault, hfaulted, hcount, hfailed, hmax, fun _ => hhang (by simp [htm]), hidle, hretry⟩
    exact .ite (hretimed.trans (.hangExpires _)) hretimed

/-! ### What the monitor observes (R114, R115, R116, R129, R131) -/

theorem engine_of_beforeStart (h : s.beforeStart = some f) : s.engine = .transfer f := by
  simp only [State.beforeStart] at h
  split at h
  · next g hg =>
    split at h
    · cases h
      exact hg
    · cases h
  · cases h

/-- With no transfer waiting to start, a monitor that observes has an engine that performs no request (Table 6-2). -/
theorem slot_of_observes (h : s.busLaw) (ho : s.observes = true) (hb : s.beforeStart = none) : s.engine.slot = none := by
  obtain ⟨hm, -⟩ : s.monitor.state ≠ .owned ∧ s.engine ≠ .recovery true := by simpa [State.observes] using ho
  by_cases hf : s.monitor.state = .free
  · cases he : s.engine with
    | transfer f => simp [State.beforeStart, he, hf] at hb
    | idle => rfl
    | recovery b => rfl
  · exact slot_eq_none h hf hm

/-- A foreign transfer is met by an engine that performs no request (R115, R116, R129, R131). -/
theorem KeepsBus.reachForeign (h : s.busLaw → s.engine.slot = none) (l : Lines) :
    KeepsBus s ((s.setEngine .idle).reachForeign l) :=
  .of_move (.of_fields (by simp)) (fun _ => busLaw_inForeign (monitor_reachForeign_eq _ l) (by simp)) fun hb => by
    rw [h hb]
    simp [Engine.slot]

theorem KeepsBus.observeStart (s : State) : KeepsBus s s.observeStart := by
  simp only [State.observeStart]
  split
  · next ho =>
    split
    · next f hf => exact .loseTransfer (engine_of_beforeStart hf) _ _ _
    · next hb =>
      have hmoved := KeepsBus.reachForeign (fun h => slot_of_observes h ho hb) linesAfterStart
      exact .ite (hmoved.trans .stopHang) hmoved
  · exact .refl s

/-- What the lines read is noted; where a timer goes with them it is set (R114, R116). -/
theorem KeepsBus.seen {l : Lines} {hang idle : Option Timer}
    (hlines : s.monitor.state = .free → l = linesHigh)
    (hhang : hang.isSome → s.monitor.hang.isSome ∨ s.monitor.state = .unknown ∨ s.monitor.state = .foreign)
    (hidle : s.busLaw → idle.isSome → s.monitor.state = .unknown ∧ bothHigh l = true) :
    KeepsBus s (s.setMonitor { s.monitor with lines := l, hang := hang, idle := idle }) := by
  refine .of_move (.of_fields (by simp)) (fun hb => ?_) fun _ => by simp
  have hidle := hidle hb
  obtain ⟨hagree, -, hfault, hfaulted, hcount, hfailed, hmax, hruns, -, hretry⟩ := hb
  refine ⟨hagree, hlines, hfault, hfaulted, hcount, hfailed, hmax, fun hs => ?_, hidle, hretry⟩
  exact (hhang hs).elim hruns fun k => k.elim .inl fun k => .inr (.inl k)

theorem KeepsBus.observeStop (s : State) : KeepsBus s s.observeStop := by
  refine .ite ?_ (.refl s)
  split
  case h_1 hm | h_2 hm | h_3 hm => exact .freed (by simp [hm]) (by simp [hm])
  case h_4 hm =>
    refine .seen (hang := s.monitor.hang) (idle := s.monitor.idle) (by simp [hm]) (fun h => .inl h) fun hb hs => ?_
    obtain ⟨-, -, -, -, -, -, -, -, hidle, -⟩ := hb
    have := (hidle hs).1
    simp [hm] at this
  all_goals exact .refl s

/-- In FREE, with no transfer waiting to start, the engine rests. -/
theorem idle_of_free (h : s.busLaw) (hm : s.monitor.state = .free) (hb : s.beforeStart = none) : s.engine = .idle := by
  have hagree := h.1
  rw [State.engineAgrees, hm] at hagree
  rcases hagree with he | ⟨f, he, -⟩
  · exact he
  · simp [State.beforeStart, he, hm] at hb

/-- The idle confirmation timer runs in UNKNOWN alone (R114). -/
theorem idle_stopped (h : s.busLaw) (hm : s.monitor.state ≠ .unknown) : s.monitor.idle = none := by
  obtain ⟨-, -, -, -, -, -, -, -, hidle, -⟩ := h
  exact Option.not_isSome_iff_eq_none.1 fun hs => hm (hidle hs).1

theorem KeepsBus.observeOther (s : State) (l : Lines) : KeepsBus s (s.observeOther l) := by
  have still (hu : s.monitor.state ≠ .unknown) (hf : s.monitor.state ≠ .free) {hang : Option Timer}
      (hhang : hang.isSome → s.monitor.hang.isSome ∨ s.monitor.state = .unknown ∨ s.monitor.state = .foreign) :
      KeepsBus s (s.setMonitor { s.monitor with lines := l, hang := hang }) :=
    .seen (idle := s.monitor.idle) (fun k => absurd k hf) hhang fun hb hs => by simp [idle_stopped hb hu] at hs
  simp only [State.observeOther]
  split
  case h_1 hm =>
    split
    · next hl =>
      exact .seen (hang := none) (idle := some (s.timer Config.idleConfirmation)) (by simp [hm]) (by simp) fun _ _ => ⟨hm, hl⟩
    · exact .seen (hang := some (s.timer s.params.hangLimit)) (idle := none) (by simp [hm]) (fun _ => .inr (.inl hm)) (by simp)
  case h_2 hm =>
    split
    · next f hf => exact .loseTransfer (engine_of_beforeStart hf) _ _ _
    · next hb =>
      refine .of_move (.of_fields (by simp)) (fun h => ?_) fun _ => by simp
      exact busLaw_inForeign (monitor_reachForeign_eq _ l) (by simpa using idle_of_free h hm hb)
  case h_3 hm =>
    exact still (by simp [hm]) (by simp [hm]) (hang := some (s.timer s.params.hangLimit)) fun _ => .inr (.inr hm)
  case h_4 hm | h_5 hm | h_6 hm | h_7 hm => exact still (by simp [hm]) (by simp [hm]) .inl

theorem KeepsBus.observeChange (s : State) (c : LineChange) : KeepsBus s (s.observeChange c) :=
  .ite (.refl s) (.ite (.observeStart s) (.ite (.observeStop s) (.observeOther s _)))

/-! ### The transfer on the bus (R112, R115, R121) -/

theorem KeepsBus.nackAddress (hf : s.engine = .transfer f) (hs : f.stretch = none) : KeepsBus s (s.nackAddress f) := by
  refine .ite (.of_move (.of_fields (by simp)) (fun _ => ?_) fun _ => by simp) (.finishTransfer hf _)
  exact busLaw_inFree (monitor_reachFree s) (.inr ⟨f, by simpa using hf, hs⟩)

theorem onBus_iff : s.onBus = some f ↔ s.engine = .transfer f ∧ s.monitor.state = .owned ∧ f.stretch = none := by
  simp only [State.onBus]
  cases s.engine with
  | idle => simp
  | recovery b => simp
  | transfer g =>
    simp only [Option.ite_none_right_eq_some, Option.some.injEq, Engine.transfer.injEq]
    exact ⟨fun ⟨⟨hm, hs⟩, he⟩ => ⟨he, hm, he ▸ hs⟩, fun ⟨he, hm, hs⟩ => ⟨⟨hm, he ▸ hs⟩, he⟩⟩

theorem KeepsBus.endTransfer (hf : s.engine = .transfer f) (hs : f.stretch = none) (how : TransferEnd) :
    KeepsBus s (s.endTransfer f how) := by
  simp only [State.endTransfer]
  split
  · exact .nackAddress hf hs
  all_goals
    split
    · exact .refl s
    · exact .finishTransfer hf _

/-- In OWNED the stretch timer may run or not (R112). -/
theorem KeepsBus.setStretch {g : Transfer} (hf : s.engine = .transfer f) (hm : s.monitor.state = .owned)
    (hw : g.work = f.work) : KeepsBus s (s.setEngine (.transfer g)) := by
  refine .of_move (.of_fields (by simp)) (fun hb => ?_) fun _ => ?_
  · obtain ⟨-, hlines, hfault, hfaulted, hcount, hfailed, hmax, hhang, hidle, hretry⟩ := hb
    refine ⟨?_, hlines, hfault, hfaulted, hcount, hfailed, hmax, fun hs => ?_, hidle, hretry⟩
    · rw [State.engineAgrees]
      simp [hm]
    · have := hhang hs
      simp [hm, hf] at this
  · rw [hf, slot_transfer, ← hw, ← slot_transfer]
    simp

theorem engine_countAttempt (s : State) (f : Transfer) : ∃ g, (s.countAttempt f).engine = .transfer g ∧ g.work = f.work := by
  rw [State.countAttempt]
  split <;> exact ⟨_, rfl, rfl⟩

theorem KeepsPool.countAttempt (s : State) (f : Transfer) : KeepsPool Result.any s (s.countAttempt f) := by
  simp only [State.countAttempt]
  split
  · next n _ =>
    have hkeeps : KeepsPool Result.any s (s.updRequest n fun r => { r with attempts := r.attempts + 1 }) :=
      .updRequest fun r _ => ⟨.of_same rfl rfl rfl (.inl rfl), rfl, Iff.rfl, .imp_right .inl⟩
    exact hkeeps.after (by simp)
  · exact .of_fields (by simp)

/-- START takes the monitor to OWNED and counts the attempt (R115, R121). -/
theorem KeepsBus.start (hf : s.engine = .transfer f) (hm : s.monitor.state = .free) :
    KeepsBus s ((s.setMonitor { s.monitor with state := .owned, lines := linesAfterStart }).countAttempt f) := by
  obtain ⟨g, hg, hwork⟩ :=
    engine_countAttempt (s.setMonitor { s.monitor with state := .owned, lines := linesAfterStart }) f
  refine .of_move (.trans (.of_fields (by simp)) (.countAttempt _ f)) (fun hb => ?_) fun _ => by
    rw [hg, hf, slot_transfer, slot_transfer, hwork]
  obtain ⟨-, -, hfault, -, hcount, hfailed, hmax, hhang, hidle, hretry⟩ := hb
  rw [State.busLaw, State.engineAgrees, hg]
  simp_all [Config.faultAttempts]

end Sys2Proof.Machine

/-! ## The laws of the bus and of the pool through the commands and events (O57) -/

namespace Sys2Proof.Machine

open Sys2Proof

variable {s t z : State} {n : SlotId} {f : Transfer} {p : Port}

/-! ### The common check stage -/

/-- What a response keeps, and the body of a command that is taken, the command keeps (R152, R154). -/
theorem command_induction {P : State → Prop} {α : Type} {need : Standing} {args : Option α}
    {body : α → State → State × Reply} (hs : P s) (hrespond : ∀ z r, P z → P (z.respond p r))
    (hbody : ∀ a, s.standingRefusal need p = none → args = some a → P (body a s).1) :
    P (s.command p need args body) := by
  simp only [State.command]
  split
  · split
    · exact hrespond _ _ hs
    · next hstanding =>
      split
      · exact hrespond _ _ hs
      · next a => exact hrespond _ _ (hbody a hstanding rfl)
  · exact hs

theorem KeepsBus.command {α : Type} {need : Standing} {args : Option α} {body : α → State → State × Reply}
    (h : ∀ a, KeepsBus s (body a s).1) : KeepsBus s (s.command p need args body) :=
  command_induction (.refl s) (fun _ _ hz => hz.trans (.of_fields (by simp))) fun a _ _ => h a

/-! ### The commands -/

@[simp] theorem request_allocate (s : State) (p : Port) (n m : SlotId) (d : Descriptor) :
    (s.allocate p n d).request m = if m = n then some (s.newRequest p d) else s.request m := by
  rw [State.allocate, request_setList, request_setSlot]

@[simp] theorem list_allocate (s : State) (p q : Port) (n : SlotId) (d : Descriptor) :
    (s.allocate p n d).list q = if q = p then s.list p ++ [n] else s.list q := by
  simp only [State.allocate, list_setList]
  split
  · rfl
  · exact congrFun (list_of_lists (by simp)) q

/-- A FREE slot takes a request, QUEUED at the tail of the port's list (R3, R6, R11). -/
theorem State.poolLawFor.allocate {w : Option SlotId} (h : s.poolLawFor w) (hn : s.request n = none) (d : Descriptor) :
    (s.allocate p n d).poolLawFor w where
  nodup := (listLaw_allocate h.listLaw p hn d).1
  listed q m := by
    have hfree : n ∉ s.list q := fun hm => by
      obtain ⟨r, hr, -⟩ := (h.listed q n).1 hm
      rw [hn] at hr
      cases hr
    rw [request_allocate, list_allocate]
    by_cases em : m = n
    · subst em
      by_cases eq : q = p
      · simp [eq, State.newRequest, Request.listed]
      · simp [eq, hfree, State.newRequest, Ne.symm eq]
    · by_cases eq : q = p
      · simp [eq, em, h.listed]
      · simp [eq, em, h.listed]
  marked m r hr := by
    rw [request_allocate] at hr
    split at hr
    · cases hr
      simp [State.newRequest]
    · exact h.marked m r hr
  active m := by
    rw [request_allocate]
    split
    · next e =>
      subst e
      refine iff_of_false (by simp [State.newRequest]) fun hw => ?_
      obtain ⟨r, hr, -⟩ := (h.active m).2 hw
      rw [hn] at hr
      cases hr
    · exact h.active m

theorem KeepsBus.allocate (hn : s.request n = none) (p : Port) (d : Descriptor) : KeepsBus s (s.allocate p n d) := by
  have hengine : (s.allocate p n d).engine = s.engine := by simp [State.allocate]
  refine ⟨busLaw_of_fields hengine (by simp [State.allocate]), fun _ hp => ?_⟩
  rw [poolLaw_iff, hengine]
  exact (poolLaw_iff.1 hp).allocate hn d

theorem KeepsBus.submitBody (p : Port) (d : Descriptor) : KeepsBus s (submitBody p d s).1 := by
  simp only [Machine.submitBody]
  split
  · exact .refl s
  · split
    · exact .refl s
    · next n hn => exact .settle (.allocate (freeSlot_eq_some.1 hn).1 p d)

/-- A slot that is not ACTIVE is freed. -/
theorem KeepsBus.freeSlotOf {r : Request} (hr : s.request n = some r) (hs : r.state ≠ .active) :
    KeepsBus s (s.freeSlotOf n) :=
  .of_pool ⟨.freeSlotOf s n, fun w hw => hw.freeSlotOf fun e => by
    obtain ⟨q, hq, hact⟩ := (hw.active n).2 e
    rw [hr, Option.some.injEq] at hq
    exact hs (hq ▸ hact)⟩ (by simp)

/-- The ACTIVE slot is marked for its abort (R18). -/
theorem KeepsBus.markAbort {r : Request} (hr : s.request n = some r) (hs : r.state = .active) :
    KeepsBus s (s.updRequest n fun r => { r with abortPending := true }) := by
  refine .of_pool (.updRequest fun q hq => ⟨.of_same rfl rfl rfl (.inl rfl), rfl, Iff.rfl, fun _ => .inr (.inr ?_)⟩) (by simp)
  rw [hr, Option.some.injEq] at hq
  exact hq ▸ hs

theorem KeepsBus.cancelBody (p : Port) (k : Half) : KeepsBus s (cancelBody p k s).1 := by
  simp only [Machine.cancelBody]
  split
  · exact .refl s
  · next n r hn =>
    have hr := request_of_ticketSlot hn
    split
    · next hs => exact .settle (.freeSlotOf hr (by simp [hs]))
    · next hs => exact .markAbort hr hs
    · exact .refl s

theorem KeepsBus.fetchBody (p : Port) (k : Half) (keep : Bool) : KeepsBus s (fetchBody p k keep s).1 := by
  simp only [Machine.fetchBody]
  split
  · exact .refl s
  · next n r hn =>
    split
    · next hs => exact .ite (.refl s) (.freeSlotOf (request_of_ticketSlot hn) (by simp [hs]))
    all_goals exact .refl s

theorem KeepsBus.endSession (s : State) (p : Port) : KeepsBus s (s.endSession p) :=
  .of_pool (.endSession Result.any_without s p) (by simp)

theorem KeepsBus.attachBody (p : Port) : KeepsBus s (attachBody p s).1 := by
  simp only [Machine.attachBody]
  split
  · exact .ite (.settle ((KeepsBus.endSession s p).trans (.of_fields (by simp [State.openSession]))))
      (.of_fields (by simp [State.openSession]))
  · exact .refl s

theorem KeepsBus.release (s : State) (i : TargetId) (p : Port) (c : Option LockEnd) : KeepsBus s (s.release i p c) :=
  .of_pool (.release Result.any_without s i p c) (by simp)

theorem KeepsBus.readNoticeBody (p : Port) : KeepsBus s (readNoticeBody p s).1 := by
  simp only [Machine.readNoticeBody]
  split
  · exact .refl s
  · exact .of_fields (by simp)

theorem KeepsBus.lockBody (p : Port) (a : Byte) (l : Nat) (w : Bool) : KeepsBus s (lockBody p a l w s).1 := by
  simp only [Machine.lockBody]
  split
  · exact .refl s
  · split
    · exact .refl s
    · split
      · exact .refl s
      · split
        · exact .refl s
        · split
          · exact .settle (.of_fields (by simp))
          · simp only [State.joinOrReport]
            split
            · exact .of_fields (by simp)
            · exact .refl s

theorem KeepsBus.renewBody (p : Port) (a : Byte) : KeepsBus s (renewBody p a s).1 := by
  simp only [Machine.renewBody]
  split
  · exact .refl s
  · split
    · exact .refl s
    · split
      · exact .of_fields (by simp)
      · exact .refl s

theorem KeepsBus.unlockBody (p : Port) (a : Byte) : KeepsBus s (unlockBody p a s).1 := by
  simp only [Machine.unlockBody]
  split
  · exact .refl s
  · split
    · exact .settle (.release s _ p none)
    · split
      · exact .of_fields (by simp)
      · exact .refl s

theorem KeepsBus.forceUnlockBody (a : Byte) : KeepsBus s (forceUnlockBody a s).1 := by
  simp only [Machine.forceUnlockBody]
  split
  · exact .refl s
  · split
    · exact .refl s
    · exact .settle (.release s _ _ _)

theorem KeepsBus.mirrorDefineBody (p : Port) (k : Key) (x : Sponsor) : KeepsBus s (mirrorDefineBody p k x s).1 := by
  simp only [Machine.mirrorDefineBody]
  split
  · exact .refl s
  · split
    · exact .refl s
    · split
      · exact .settle (.of_fields (by simp))
      · split
        · exact .refl s
        · exact .settle (.of_fields (by simp))

theorem KeepsBus.mirrorDropBody (p : Port) (e : EntryId) : KeepsBus s (mirrorDropBody p e s).1 := by
  simp only [Machine.mirrorDropBody]
  split
  · exact .refl s
  · split
    · exact .refl s
    · exact .settle (.of_fields (by simp))

theorem KeepsBus.declareBody (d : Declaration) : KeepsBus s (declareBody d s).1 := by
  simp only [Machine.declareBody]
  split
  · split
    · exact .refl s
    · exact .settle (.of_pool (.redeclare Result.any_without s _ _ d) (by simp))
  · split
    · exact .refl s
    · exact .of_fields (by simp)

theorem KeepsBus.removeBody (a : Byte) : KeepsBus s (removeBody a s).1 := by
  simp only [Machine.removeBody]
  split
  · exact .refl s
  · split
    · exact .refl s
    · exact .of_fields (by simp)

theorem KeepsBus.clearBody (a : Byte) : KeepsBus s (clearBody a s).1 := by
  simp only [Machine.clearBody]
  split
  · exact .refl s
  · split
    · exact .settle (.of_pool (.quarantineEnd Result.any_without s _) (by simp))
    · exact .of_fields (by simp)
    · exact .refl s

theorem KeepsBus.setParameterBody (i : Byte) (k : Param) (ps : Params) : KeepsBus s (setParameterBody i k ps s).1 := by
  have hset : KeepsBus s { s with params := ps } := .of_fields ⟨rfl, rfl, rfl, rfl⟩
  refine .ite (.refl s) ?_
  cases k with
  | agingLimit => exact hset.trans (.of_pool (.ageAll _) (by simp [State.actOn]))
  | maintenanceClass | staleMultiple => exact hset.trans (.of_fields (by simp [State.actOn]))
  | hangLimit => exact hset.trans (.retimeHang _)
  | busRate | addressRetries | lossLimit | faultRetry | maxLease | admitted => exact hset

theorem KeepsBus.busResetBody : KeepsBus s (busResetBody s).1 := by
  simp only [Machine.busResetBody]
  split
  · next hm => exact .beginAttempt (by simp [hm]) (by simp [hm])
  · exact .refl s

/-! ### The resets -/

/-- With every slot FREE and every list empty the law of the pool holds. -/
theorem poolLawFor_of_empty (hr : ∀ n, s.request n = none) (hl : ∀ p, s.list p = []) : s.poolLawFor none := by
  constructor <;> simp [hr, hl]

/-- The reset values are lawful, whatever stood before. -/
theorem KeepsBus.resetBlocks (s : State) (l : Lines) (sel : Port → Bool) : KeepsBus s (s.resetBlocks l sel) where
  bus _ := by simp [State.busLaw, State.engineAgrees, State.resetBlocks, Monitor.atReset, Config.faultAttempts]
  pool _ _ := poolLaw_iff.2 (poolLawFor_of_empty (fun n => by simp [State.request, State.slot, State.resetBlocks, Vector.get])
    fun p => by simp [State.list, State.resetBlocks])

/-- In UNKNOWN the lines as read set one of the two timers (R114, R133). -/
theorem KeepsBus.readLines (h : s.monitor.state = .unknown) : KeepsBus s s.readLines := by
  simp only [State.readLines]
  split
  · next hl => exact .seen (l := s.monitor.lines) (hang := none) (by simp [h]) (by simp) fun _ _ => ⟨h, hl⟩
  · exact .seen (l := s.monitor.lines) (idle := none) (by simp [h]) (fun _ => .inr (.inl h)) (by simp)

theorem KeepsBus.restarted (s : State) (l : Lines) (sel : Port → Bool) : KeepsBus s (s.resetBlocks l sel).readLines :=
  (KeepsBus.resetBlocks s l sel).trans (.readLines rfl)

theorem KeepsBus.enterReset (s : State) (k : ResetHold) : KeepsBus s (s.enterReset k) :=
  (KeepsBus.resetBlocks s linesHigh fun _ => false).trans (.of_fields ⟨rfl, rfl, rfl, rfl⟩)

theorem KeepsBus.takeResetPart (s : State) (p : Port) (l : Lines) : KeepsBus s (s.takeResetPart p l) :=
  (KeepsBus.restarted s l _).trans (.of_fields ⟨rfl, rfl, rfl, rfl⟩)

theorem KeepsBus.leaveReset (s : State) (straps : BitVec 2) (c : ResetCause) (l : Lines) (sel : PortSet) :
    KeepsBus s (s.leaveReset straps c l sel) :=
  (KeepsBus.restarted s l _).trans (.of_fields ⟨rfl, rfl, rfl, rfl⟩)

theorem free_of_beforeStart (h : s.beforeStart = some f) : s.monitor.state = .free := by
  simpa [State.beforeStart, engine_of_beforeStart h] using h

/-! ### The rows -/

theorem KeepsBus.next (h : (Host.Outcome.next z : Answer) = .next t) (hz : KeepsBus s z) : KeepsBus s t := next_inj h ▸ hz

/-- An event is taken, or it is ignored in reset (R174, R175). -/
theorem KeepsBus.event (h : s.event z = .next t) (hz : KeepsBus s z) : KeepsBus s t := .next h (.ite (.refl s) hz)

/-- Every host command keeps both laws. -/
theorem KeepsBus.exec_header {c : Instr} (hc : headerPort c = some p) (h : exec c s = .next t) : KeepsBus s t := by
  cases c <;> simp only [headerPort, reduceCtorEq] at hc
  case info | status | getParameter | mirrorFind | mirrorRead | targetQuery => exact .next h (.command fun _ => .refl s)
  case attach => exact .next h (.command fun _ => .attachBody _)
  case detach | evictPort => exact .next h (.command fun _ => .ite (.settle (.endSession s _)) (.refl s))
  case repeatResponse => exact .next h (.ite (.of_fields (by simp)) (.refl s))
  case submit =>
    simp only [exec, execSubmit] at h
    split at h
    · exact .next h (.command fun _ => .submitBody _ _)
    · cases h
  case cancel => exact .next h (.command fun _ => .cancelBody _ _)
  case fetch => exact .next h (.command fun _ => .fetchBody _ _ _)
  case readNotice => exact .next h (.command fun _ => .readNoticeBody _)
  case setNoticeMask => exact .next h (.command fun _ => .of_fields (by simp))
  case lock => exact .next h (.command fun _ => .lockBody _ _ _ _)
  case renew => exact .next h (.command fun _ => .renewBody _ _)
  case unlock => exact .next h (.command fun _ => .unlockBody _ _)
  case mirrorDefine => exact .next h (.command fun _ => .mirrorDefineBody _ _ _)
  case mirrorDrop => exact .next h (.command fun _ => .mirrorDropBody _ _)
  case declareTarget => exact .next h (.command fun _ => .declareBody _)
  case removeTarget => exact .next h (.command fun _ => .removeBody _)
  case clearQuarantine => exact .next h (.command fun _ => .clearBody _)
  case forceUnlock => exact .next h (.command fun _ => .forceUnlockBody _)
  case setParameter => exact .next h (.command fun _ => .setParameterBody _ _ _)
  case busReset => exact .next h (.command fun _ => .busResetBody)
  case resetPart => exact .next h (.command fun _ => .of_fields (by simp))
  case unknownCommand =>
    simp only [exec, execUnknownCommand] at h
    split at h
    · cases h
    · exact .next h (.ite (.of_fields (by simp)) (.refl s))
  case checkError => exact .next h (.ite (.of_fields (by simp)) (.refl s))

/-- Every frame event, reset, timer expiry and event of the field bus keeps both laws. -/
theorem KeepsBus.exec_event {c : Instr} (hc : headerPort c = none) (h : exec c s = .next t) : KeepsBus s t := by
  cases c <;> simp only [headerPort, reduceCtorEq] at hc
  case frameOpen | statusByteShiftedOut | frameAbandoned | ncsRiseInIdle =>
    exact .event h (.ite (.of_fields (by simp)) (.refl s))
  case frameEnd => exact .event h (.ite (.ite (.takeResetPart s _ _) (.of_fields (by simp))) (.refl s))
  case resetPartTaken => exact .event h (.ite (.takeResetPart s _ _) (.refl s))
  case powerOnReset | nrstLow => exact .next h (.enterReset s _)
  case powerOnResetEnd | nrstRelease =>
    exact .next h (.ite (.ite (.of_fields ⟨rfl, rfl, rfl, rfl⟩) (.leaveReset s _ _ _ _)) (.refl s))
  case classAgingExpiry => exact .event h (.of_pool (.ageOne s _) (by simp))
  case lockLeaseExpiry =>
    refine .event h ?_
    split
    · exact .refl s
    · exact .ite (.settle (.release s _ _ _)) (.refl s)
  case mirrorPollDue =>
    refine .event h ?_
    split
    · exact .refl s
    · split
      · exact .refl s
      · refine .ite (.ite (.of_fields (by simp)) (.ite (.of_fields (by simp)) (.settle (.of_fields (by simp))))) (.refl s)
  case staleLimitExpiry =>
    refine .event h ?_
    split
    · exact .refl s
    · exact .ite (.of_fields (by simp)) (.refl s)
  case probeDueExpiry =>
    refine .event h ?_
    split
    · exact .refl s
    · exact .ite (.settle (.of_fields (by simp))) (.refl s)
  case stretchTimeout =>
    refine .event h ?_
    split
    · next f hf =>
      split
      · next hc => exact .stretchExpires hf hc.1
      · exact .refl s
    · exact .refl s
  case hangTimerExpiry | nextRecoveryAttempt => exact .event h (.ite (.hangExpires s) (.refl s))
  case idleConfirmationExpiry =>
    refine .event h ?_
    split
    · next hc => exact .settle (.reachFree (.inl hc.1))
    · exact .refl s
  case faultRetryExpiry =>
    refine .event h ?_
    split
    · next hc => exact .beginAttempt (by simp [hc.1]) (by simp [hc.1])
    · exact .refl s
  case transferCompletion =>
    refine .event h ?_
    split
    · exact .refl s
    · next f hf =>
      obtain ⟨he, -, hs⟩ := onBus_iff.1 hf
      exact .endTransfer he hs _
  case arbitrationLoss =>
    refine .event h ?_
    split
    · exact .refl s
    · next f hf => exact .ite (.loseTransfer (onBus_iff.1 hf).1 _ _ _) (.refl s)
  case start =>
    refine .event h ?_
    split
    · exact .refl s
    · next f hf => exact .start (engine_of_beforeStart hf) (free_of_beforeStart hf)
  case lineActivityBeforeStart =>
    refine .event h ?_
    split
    · exact .refl s
    · next f hf => split <;> exact .loseTransfer (engine_of_beforeStart hf) _ _ _
  case recoveryAttemptEnd =>
    refine .event h ?_
    split
    · next he => exact .endAttempt he _
    · exact .refl s
  case foreignStart => exact .event h (.observeStart s)
  case foreignStop => exact .event h (.observeStop s)
  case lineActivity => exact .event h (.observeChange s _)
  case millisecondBoundary => exact .event h (.of_fields ⟨rfl, rfl, rfl, rfl⟩)
  case addressAttemptNack =>
    refine .event h ?_
    split
    · exact .refl s
    · next f hf =>
      obtain ⟨he, -, hs⟩ := onBus_iff.1 hf
      exact .nackAddress he hs
  case clockStretchStart =>
    refine .event h ?_
    split
    · exact .refl s
    · next f hf =>
      obtain ⟨he, hm, -⟩ := onBus_iff.1 hf
      exact .setStretch he hm rfl
  case clockStretchEnd =>
    refine .event h ?_
    split
    · next f hf =>
      split
      · next hm => exact .setStretch hf hm rfl
      · exact .refl s
    · exact .refl s

/-- Settles O57: every row keeps engine, monitor and slots agreed. -/
theorem stepsKeepTheBusAndPoolLaws : Obligations.StepsKeepTheBusAndPoolLaws := by
  intro s t hs h
  suffices hkeeps : KeepsBus s t from ⟨hkeeps.bus hs, hkeeps.pool hs⟩
  simp only [step] at h
  split at h
  · exact .next h (.refl s)
  · next c rest _ =>
    have htaken : KeepsBus s { s with pending := rest } := .of_fields ⟨rfl, rfl, rfl, rfl⟩
    cases hc : headerPort c with
    | none => exact htaken.trans (.exec_event hc h)
    | some p => exact htaken.trans (.exec_header hc h)

end Sys2Proof.Machine

/-! ## The law of the quota and the record sizes (O58)

No step but SUBMIT adds to a tally, and it only within the quota (R8). The results and mirror values are no longer than the
transfers that brought them, and these no longer than what asked for them (Tables 0-3, 1-5, 3-3). -/

namespace Sys2Proof.Machine

open Sys2Proof

variable {s t z : State} {n : SlotId} {f : Transfer} {p q : Port} {w : Work} {r : Report} {ok : Result → Prop}

/-! ### The tallies -/

theorem ownedBy_iff : s.ownedBy p n = true ↔ ∃ r, s.request n = some r ∧ r.owner = p := by
  simp [State.ownedBy, Option.any_eq_true]

/-- Where no slot is allocated no tally grows (R8). -/
theorem SlotsFollow.tally_le (h : SlotsFollow ok s t) (p : Port) : t.tally p ≤ s.tally p :=
  List.countP_mono_left fun n _ hn => by
    obtain ⟨k, hk, hown⟩ := ownedBy_iff.1 hn
    obtain ⟨r, hr, hfollows⟩ := h.request n k hk
    exact ownedBy_iff.2 ⟨r, hr, hfollows.owner ▸ hown⟩

/-- An allocation adds at most one to the tally of its port, and nothing to another's. -/
theorem tally_allocate_le (s : State) (p q : Port) (n : SlotId) (d : Descriptor) :
    (s.allocate p n d).tally q ≤ s.tally q + if q = p then 1 else 0 := by
  have hother (m : SlotId) (hm : (s.allocate p n d).ownedBy q m = true) : s.ownedBy q m = true ∨ (m = n ∧ q = p) := by
    obtain ⟨r, hr, hown⟩ := ownedBy_iff.1 hm
    rw [request_allocate] at hr
    split at hr
    · next e =>
      cases hr
      exact .inr ⟨e, hown.symm⟩
    · exact .inl (ownedBy_iff.2 ⟨r, hr, hown⟩)
  split
  · have hsub : (List.finRange 48).filter ((s.allocate p n d).ownedBy q) ⊆ n :: (List.finRange 48).filter (s.ownedBy q) := by
      intro m hm
      obtain ⟨hmem, hown⟩ := List.mem_filter.1 hm
      rcases hother m hown with h | ⟨e, -⟩
      · exact List.mem_cons_of_mem _ (List.mem_filter.2 ⟨hmem, h⟩)
      · exact e ▸ List.mem_cons_self
    have hle := (((List.nodup_finRange 48).filter _).subperm hsub).length_le
    rwa [List.length_cons, ← List.countP_eq_length_filter, ← List.countP_eq_length_filter] at hle
  · next hne => exact List.countP_mono_left fun m _ hm => (hother m hm).resolve_right fun h => hne h.2

theorem sharedInUse_eq (s : State) :
    s.sharedInUse = s.tally .h0 - 8 + (s.tally .h1 - 8 + (s.tally .h2 - 8 + (s.tally .h3 - 8))) := by
  simp [State.sharedInUse, Port.all, Config.reserve]

theorem sharedInUse_mono (h : ∀ p, t.tally p - 8 ≤ s.tally p - 8) : t.sharedInUse ≤ s.sharedInUse := by
  rw [sharedInUse_eq, sharedInUse_eq]
  exact Nat.add_le_add (h .h0) (Nat.add_le_add (h .h1) (Nat.add_le_add (h .h2) (h .h3)))

theorem SlotsFollow.quotaLaw (h : SlotsFollow ok s t) (hs : s.quotaLaw) : t.quotaLaw :=
  Nat.le_trans (sharedInUse_mono fun p => Nat.sub_le_sub_right (h.tally_le p) 8) hs

theorem quotaPasses_iff : s.quotaPasses p = true ↔ s.tally p < 8 ∨ s.sharedInUse < 16 := by
  simp only [State.quotaPasses, Bool.or_eq_true, decide_eq_true_eq]
  rfl

/-- An allocation takes at most one shared slot. -/
theorem sharedInUse_allocate_le (s : State) (p : Port) (n : SlotId) (d : Descriptor) :
    (s.allocate p n d).sharedInUse ≤ s.sharedInUse + 1 := by
  have excess (q : Port) : (s.allocate p n d).tally q - 8 ≤ s.tally q - 8 + if q = p then 1 else 0 := by
    have := tally_allocate_le s p q n d
    by_cases hq : q = p
    · simp only [hq, if_true] at this ⊢
      omega
    · simpa only [hq, if_false, Nat.add_zero] using Nat.sub_le_sub_right this 8
  rw [sharedInUse_eq, sharedInUse_eq]
  have hsum := Nat.add_le_add (excess .h0) (Nat.add_le_add (excess .h1) (Nat.add_le_add (excess .h2) (excess .h3)))
  refine hsum.trans (Nat.le_of_eq ?_)
  cases p <;> simp only [reduceCtorEq, if_true, if_false] <;> ac_rfl

/-- What the quota check lets through stays within the quota (R8). -/
theorem quotaLaw_allocate (hs : s.quotaLaw) (hp : s.quotaPasses p = true) (n : SlotId) (d : Descriptor) :
    (s.allocate p n d).quotaLaw := by
  rcases quotaPasses_iff.1 hp with hreserve | hshared
  · refine Nat.le_trans (sharedInUse_mono fun q => ?_) hs
    have := tally_allocate_le s p q n d
    split at this
    · next e =>
      rw [e] at this ⊢
      omega
    · exact Nat.sub_le_sub_right this 8
  · exact (sharedInUse_allocate_le s p n d).trans hshared

/-! ### The sizes -/

/-- A result within Table 1-5. -/
def Result.small (x : Result) : Prop := x.data.length ≤ Config.dataMax ∧ x.bytesDone ≤ Config.dataMax

theorem Result.small_without (o : TransferOutcome) : (Result.without o).small := ⟨Nat.zero_le _, Nat.zero_le _⟩

/-- The sizes of a descriptor (Table 1-3). -/
def Descriptor.small (d : Descriptor) : Prop := d.data.length ≤ Config.dataMax ∧ d.readLen ≤ Config.dataMax

theorem Request.sizeLaw_iff {r : Request} : r.sizeLaw ↔ r.desc.small ∧ ∀ x, r.state = .done x → x.small :=
  and_assoc.symm

/-- The sizes of the mirror table: the lengths of keys and of values (Table 3-3). -/
def entriesSmall (x : Vector MirrorEntry 24) : Prop :=
  ∀ e k v, heldOf x e = some (k, v) → k.len ≤ Config.mirrorValueMax ∧ ∀ h, v = some h → h.bytes.length ≤ Config.mirrorValueMax

/-- The length of the poll that an engine runs (R59). -/
def Engine.small (g : Engine) : Prop := ∀ f e i k m, g = .transfer f → f.work = .poll e i k m → k.len ≤ Config.mirrorValueMax

/-- The sizes of the mirror table, and so of the poll that the engine runs. -/
def State.tablesSmall (s : State) : Prop := entriesSmall s.entries ∧ s.engine.small

theorem sizeLaw_iff : s.sizeLaw ↔ (∀ n r, s.request n = some r → r.sizeLaw) ∧ s.tablesSmall := by
  refine and_congr Iff.rfl (and_congr ⟨fun h e k v hv => ?_, fun h e u hu => ?_⟩ Iff.rfl)
  · obtain ⟨u, hu, heq⟩ := Option.map_eq_some_iff.1 (hv : (s.entryUse e).map _ = _)
    cases heq
    exact h e u hu
  · exact h e u.key u.value (Option.map_eq_some_iff.2 ⟨u, hu, rfl⟩)

theorem Engine.small_idle : Engine.idle.small := fun _ _ _ _ _ h => by cases h

theorem Engine.small_recovery (b : Bool) : (Engine.recovery b).small := fun _ _ _ _ _ h => by cases h

theorem entriesSmall_of_held (h : heldOf t.entries = heldOf s.entries) (hs : entriesSmall s.entries) :
    entriesSmall t.entries := fun e k v hv => hs e k v (h ▸ hv)

/-! ### What keeps both laws -/

/-- The law of the quota and the record sizes are kept, each by itself. -/
structure KeepsSizes (s t : State) : Prop where
  quota : s.quotaLaw → t.quotaLaw
  sizes : s.sizeLaw → t.sizeLaw

theorem KeepsSizes.refl (s : State) : KeepsSizes s s := ⟨id, id⟩

theorem KeepsSizes.trans (h : KeepsSizes s t) (k : KeepsSizes t z) : KeepsSizes s z :=
  ⟨fun hs => k.quota (h.quota hs), fun hs => k.sizes (h.sizes hs)⟩

theorem KeepsSizes.ite {c : Prop} [Decidable c] (h : KeepsSizes s t) (k : KeepsSizes s z) :
    KeepsSizes s (if c then t else z) := by
  split
  · exact h
  · exact k

/-- Slots that go on, with small results alone where the sizes were lawful. -/
abbrev SlotsSmall (s t : State) : Prop := SlotsFollow (fun x => s.sizeLaw → x.small) s t

theorem small_without (s : State) (o : TransferOutcome) : s.sizeLaw → (Result.without o).small :=
  fun _ => Result.small_without o

theorem KeepsSizes.of_follow (h : SlotsSmall s t)
    (htables : s.sizeLaw → t.tablesSmall) : KeepsSizes s t := by
  refine ⟨h.quotaLaw, fun hs => sizeLaw_iff.2 ⟨fun n q hq => ?_, htables hs⟩⟩
  obtain ⟨r, hr, hfollows⟩ := h.request n q hq
  obtain ⟨hdesc, hdone⟩ := Request.sizeLaw_iff.1 (hs.1 n r hr)
  refine Request.sizeLaw_iff.2 ⟨hfollows.desc ▸ hdesc, fun x hx => ?_⟩
  exact (hfollows.result x hx).elim (hdone x) fun k => k hs

/-- Neither values nor the engine's work are touched. -/
theorem KeepsSizes.of_held (h : SlotsSmall s t) (hheld : heldOf t.entries = heldOf s.entries)
    (hengine : t.engine = s.engine) : KeepsSizes s t :=
  .of_follow h fun hs => by
    obtain ⟨-, hentries, hpoll⟩ := sizeLaw_iff.1 hs
    exact ⟨entriesSmall_of_held hheld hentries, hengine ▸ hpoll⟩

theorem KeepsSizes.of_fields
    (h : t.slots = s.slots ∧ heldOf t.entries = heldOf s.entries ∧ t.engine = s.engine) : KeepsSizes s t :=
  .of_held (.of_slots h.1) h.2.1 h.2.2

/-- The engine gives up its work. -/
theorem KeepsSizes.of_rest (h : SlotsSmall s t) (hheld : heldOf t.entries = heldOf s.entries) (hengine : t.engine.small) :
    KeepsSizes s t :=
  .of_follow h fun hs => ⟨entriesSmall_of_held hheld (sizeLaw_iff.1 hs).2.1, hengine⟩

/-! ### Selection -/

/-- A poll that is offered has the key of its entry (R39, R59). -/
theorem key_of_candidate {x : Participant} {e : EntryId} {i : Byte} {k : Key} {m : Maint}
    (h : s.candidate x = some (.poll e i k m)) : ∃ u, s.entryUse e = some u ∧ u.key = k := by
  cases x with
  | host p => simp [State.candidate] at h
  | maintenance =>
    obtain ⟨before, after, hitems, -⟩ := earliest_eq_some.1 (h : earliest s.maintenanceItems = _)
    have hmem : .poll e i k m ∈ s.maintenanceItems := by simp [hitems]
    obtain ⟨u, he, hk, -⟩ := poll_mem_maintenanceItems.1 hmem
    exact ⟨u, by rw [State.entryUse, he], hk⟩

theorem State.tablesSmall.select (hs : s.tablesSmall) : s.select.tablesSmall := by
  obtain ⟨hentries, hengine⟩ := hs
  refine ⟨entriesSmall_of_held (select_keeps s).2.2 hentries, ?_⟩
  rcases select_cases s with h | ⟨ps, x, w, -, -, hw, h⟩
  · rwa [h]
  · intro f e i k m hf hpoll
    have hrequest (n : SlotId) (hn : w = .request n) : State.request { s with pointers := ps } n ≠ none := by
      obtain ⟨r, hr, -⟩ := queued_of_candidate (hn ▸ hw)
      exact Option.ne_none_iff_exists'.2 ⟨r, hr⟩
    obtain ⟨g, hg, hwork, -⟩ := startWork_engine hrequest
    rw [h, hg, Engine.transfer.injEq] at hf
    rw [← hwork, hf, hpoll] at hw
    obtain ⟨u, hu, rfl⟩ := key_of_candidate hw
    exact (hentries e u.key u.value (Option.map_eq_some_iff.2 ⟨u, hu, rfl⟩)).1

theorem State.tablesSmall.settle (hs : s.tablesSmall) : s.settle.tablesSmall := by
  refine State.tablesSmall.select ⟨entriesSmall_of_held ?_ hs.1, ?_⟩
  · simp
  · simpa using hs.2

theorem KeepsSizes.settle (h : KeepsSizes s t) : KeepsSizes s t.settle :=
  h.trans (.of_follow (.settle (small_without t) (.refl _ t)) fun hs => (sizeLaw_iff.1 hs).2.settle)

/-! ### Reports (R119) -/

/-- The values stand unless a poll reads one (R61, R63). -/
theorem heldOf_completePoll {e : EntryId} {i : Byte} {o : TransferOutcome} (s : State) (d : List Byte) (ho : o ≠ .ok) :
    heldOf (s.completePoll e i o d).entries = heldOf s.entries := by
  simp only [State.completePoll, ho, if_false]
  (repeat' split) <;> simp

theorem heldOf_deliver (s : State) (h : r.outcome = .ok → ∀ e i k m, w ≠ .poll e i k m) :
    heldOf (s.deliver w r).entries = heldOf s.entries := by
  cases w with
  | request n =>
    simp only [State.deliver]
    split <;> simp
  | poll e i k m =>
    have ho : r.outcome ≠ .ok := fun ho => h ho e i k m rfl
    simp [State.deliver, heldOf_completePoll s r.data ho]
  | probe i a m => simp [State.deliver]

theorem entriesSmall_storeValue {d : List Byte} (h : entriesSmall s.entries) (hd : d.length ≤ Config.mirrorValueMax)
    (e : EntryId) (b : Bool) : entriesSmall (s.storeValue e d b).entries := by
  intro c k v hv
  obtain ⟨u, hu, heq⟩ := Option.map_eq_some_iff.1 (hv : ((s.storeValue e d b).entryUse c).map _ = _)
  have hold (u : MirrorUse) (hu : s.entryUse c = some u) := h c u.key u.value (Option.map_eq_some_iff.2 ⟨u, hu, rfl⟩)
  replace hu : (s.storeValue e d b).entryUse c = some u := hu
  rw [State.storeValue, entryUse_updEntry] at hu
  split at hu
  · next hc =>
    obtain ⟨old, hold', rfl⟩ := Option.map_eq_some_iff.1 hu
    cases heq
    refine ⟨(hold old (hc ▸ hold')).1, fun x hx => ?_⟩
    cases hx
    exact hd
  · cases heq
    exact hold u hu

/-- A poll writes no value longer than what it read (R61). -/
theorem entriesSmall_completePoll {e : EntryId} {i : Byte} {o : TransferOutcome} {d : List Byte}
    (h : entriesSmall s.entries) (hd : o = .ok → d.length ≤ Config.mirrorValueMax) : entriesSmall (s.completePoll e i o d).entries := by
  by_cases ho : o = .ok
  swap
  · exact entriesSmall_of_held (heldOf_completePoll s d ho) h
  simp only [State.completePoll, ho, if_true]
  split
  · exact h
  · split
    · refine entriesSmall_of_held (dueAfterPoll_keeps _ e).2 ?_
      simp only [State.pollOk]
      split
      · exact entriesSmall_of_held (heldOf_updEntry s (by simp)) h
      · split <;> simpa using entriesSmall_storeValue h (hd ho) e _
    · exact h

theorem entriesSmall_deliver (h : entriesSmall s.entries)
    (hr : ∀ e i k m, w = .poll e i k m → r.outcome = .ok → r.data.length ≤ Config.mirrorValueMax) :
    entriesSmall (s.deliver w r).entries := by
  cases w with
  | poll e i k m =>
    refine entriesSmall_of_held (s := s.completePoll e i r.outcome r.data) ?_
      (entriesSmall_completePoll h (hr e i k m rfl))
    simp [State.deliver]
  | request n => exact entriesSmall_of_held (heldOf_deliver s (by simp)) h
  | probe i a m => exact entriesSmall_of_held (heldOf_deliver s (by simp)) h

/-- The sizes of a report that can come of work: those of a result, and for a poll that read its value the length of it. -/
structure Report.fits (s : State) (w : Work) (r : Report) : Prop where
  result : ∀ n, w = .request n → s.sizeLaw → Result.small ⟨r.outcome, r.bytesDone, r.data⟩
  value : ∀ e i k m, w = .poll e i k m → r.outcome = .ok → s.sizeLaw → r.data.length ≤ Config.mirrorValueMax

theorem Report.fits_without (s : State) (w : Work) (o : TransferOutcome) (b : Bool) (ho : o ≠ .ok) :
    Report.fits s w ⟨o, 0, [], b⟩ := ⟨fun _ _ => small_without s o, fun _ _ _ _ _ h => absurd h ho⟩

end Sys2Proof.Machine

/-! ### The sizes through reports, losses and the monitor's moves -/

namespace Sys2Proof.Machine

open Sys2Proof

variable {s t z : State} {n : SlotId} {f : Transfer} {p q : Port} {w : Work} {r : Report} {sh : Shape} {g : Progress}

/-! ### What a transfer of a shape can bring (R122, R125, R126) -/

theorem Shape.written_le {k : Nat} (h : sh.stopsAfter k = true) : k ≤ sh.write := by
  simp only [Shape.stopsAfter] at h
  split at h <;> simp at h <;> omega

theorem Shape.report_sizes {a b : Bool} {how : TransferEnd} (h : sh.report a b how = some r) :
    r.data.length ≤ sh.read ∧ r.bytesDone ≤ max sh.write sh.read := by
  cases how with
  | addressNack => simp [Shape.report] at h
  | finished data =>
    simp only [Shape.report, Option.ite_none_right_eq_some, Option.some.injEq] at h
    obtain ⟨⟨hlen, -⟩, rfl⟩ := h
    dsimp only
    split <;> omega
  | dataNack k =>
    simp only [Shape.report, Option.ite_none_right_eq_some, Option.some.injEq] at h
    obtain ⟨⟨hstops, -⟩, rfl⟩ := h
    exact ⟨Nat.zero_le _, le_max_of_le_left (written_le hstops)⟩
  | aborted k data =>
    simp only [Shape.report, Option.ite_none_left_eq_some] at h
    obtain ⟨-, h⟩ := h
    split at h
    · simp only [Option.ite_none_right_eq_some, Option.some.injEq] at h
      obtain ⟨hstops, rfl⟩ := h
      exact ⟨Nat.zero_le _, le_max_of_le_left (written_le hstops)⟩
    · simp only [Option.ite_none_right_eq_some, Option.some.injEq] at h
      obtain ⟨⟨-, hlen⟩, rfl⟩ := h
      exact ⟨hlen.le, le_max_of_le_right hlen.le⟩

theorem Shape.reaches_sizes {b : Bool} (h : sh.reaches b g = true) :
    g.read.length ≤ sh.read ∧ g.written + g.read.length ≤ max sh.write sh.read := by
  simp only [Shape.reaches, Bool.and_eq_true] at h
  obtain ⟨-, h⟩ := h
  split at h
  · split at h <;> simp at h
    · simp [h]
    · simp [h]
    · simp [h]
    · simp [h]
  · simp at h
    simp [h]

theorem Shape.losesAfter_sizes {b : Bool} (h : sh.losesAfter b g = true) : g.written ≤ sh.write := by
  simp only [Shape.losesAfter, Bool.and_eq_true] at h
  obtain ⟨-, h⟩ := h
  split at h <;> simp at h <;> omega

/-! ### What the work asked for -/

theorem shape_small (hs : s.sizeLaw) (h : s.shape (.request n) = some sh) :
    sh.write ≤ Config.dataMax ∧ sh.read ≤ Config.dataMax := by
  simp only [State.shape, State.busWork, Option.map_map, Option.map_eq_some_iff] at h
  obtain ⟨q, hq, rfl⟩ := h
  exact (Request.sizeLaw_iff.1 (hs.1 n q hq)).1

theorem read_poll {e : EntryId} {i : Byte} {k : Key} {m : Maint} (h : s.shape (.poll e i k m) = some sh) :
    sh.read = k.len := by
  simp only [State.shape, State.busWork, Option.map_some, Option.some.injEq] at h
  rw [← h]
  rfl

theorem write_small (hs : s.sizeLaw) (h : s.shape w = some sh) : sh.write ≤ Config.dataMax := by
  cases w with
  | request n => exact (shape_small hs h).1
  | poll e i k m | probe i a m =>
    simp only [State.shape, State.busWork, Option.map_some, Option.some.injEq] at h
    rw [← h]
    exact Nat.zero_le _

/-- What the engine's transfer reports is within the sizes that the work asked for. -/
theorem Report.fits_of_report {a b : Bool} {how : TransferEnd} (hf : s.engine = .transfer f)
    (hsh : s.shape f.work = some sh) (hr : sh.report a b how = some r) : r.fits s f.work := by
  obtain ⟨hdata, hdone⟩ := Shape.report_sizes hr
  refine ⟨fun n hn hs => ?_, fun e i k m hw _ hs => ?_⟩
  · rw [hn] at hsh
    obtain ⟨hwrite, hread⟩ := shape_small hs hsh
    exact ⟨hdata.trans hread, hdone.trans (max_le hwrite hread)⟩
  · rw [hw] at hsh
    rw [read_poll hsh] at hdata
    exact hdata.trans (hs.2.2 f e i k m hf hw)

/-! ### The operations -/

theorem KeepsSizes.finishTransfer (h : r.fits s w) : KeepsSizes s (s.finishTransfer w r) := by
  refine .settle (.of_follow (.deliver (small_without s) (.of_slots (by simp)) h.result) fun hs => ⟨?_, ?_⟩)
  · refine entriesSmall_deliver (entriesSmall_of_held (s := s) (by simp) (sizeLaw_iff.1 hs).2.1) fun e i k m hw ho => ?_
    exact h.value e i k m hw ho hs
  · simpa using Engine.small_idle

theorem KeepsSizes.nackAddress (s : State) (f : Transfer) : KeepsSizes s (s.nackAddress f) := by
  simp only [State.nackAddress]
  split
  · exact .of_fields (by simp)
  · exact KeepsSizes.finishTransfer (Report.fits_without s f.work .addressNack false (by simp))

theorem KeepsSizes.endTransfer (hf : s.engine = .transfer f) (how : TransferEnd) : KeepsSizes s (s.endTransfer f how) := by
  simp only [State.endTransfer]
  split
  · exact .nackAddress s f
  all_goals
    split
    · exact .refl s
    · next h =>
      obtain ⟨sh, hsh, hrep⟩ := Option.bind_eq_some_iff.1 h
      exact KeepsSizes.finishTransfer (Report.fits_of_report hf hsh hrep)

/-- A loss reads no value. -/
theorem heldOf_loseRequest (s : State) (n : SlotId) (b : Nat) (a : Bool) :
    heldOf (s.loseRequest n b a).entries = heldOf s.entries := by
  simp only [State.loseRequest]
  (repeat' split) <;> simp [heldOf_deliver]

theorem KeepsSizes.loseTransfer {b : Nat} (s : State) (w : Work) (l : Lines) (a : Bool)
    (hb : s.sizeLaw → b ≤ Config.dataMax) : KeepsSizes s (s.loseTransfer w l b a) := by
  refine .of_follow (.loseTransfer (small_without s) s w l a fun hs => ⟨Nat.zero_le _, hb hs⟩) fun hs => ?_
  obtain ⟨lost, hlost⟩ : ∃ z, z = (s.setEngine .idle).reachForeign l := ⟨_, rfl⟩
  have rests {z : State} (hheld : heldOf z.entries = heldOf lost.entries) (hengine : z.engine = lost.engine) :
      z.settle.tablesSmall := by
    refine State.tablesSmall.settle ⟨entriesSmall_of_held (s := s) ?_ (sizeLaw_iff.1 hs).2.1, ?_⟩
    · simp [hheld, hlost]
    · rw [hengine, hlost]
      simpa using Engine.small_idle
  have delivered (o : TransferOutcome) (ho : o ≠ .ok) : (lost.deliver w ⟨o, 0, [], a⟩).settle.tablesSmall :=
    rests (heldOf_deliver lost fun h => absurd h ho) (by simp)
  simp only [State.loseTransfer, ← hlost]
  cases w with
  | request n => exact rests (heldOf_loseRequest lost n b a) (by simp)
  | poll e i k m =>
    dsimp only
    split
    · exact rests (by simp) (by simp)
    · exact delivered _ (by simp)
  | probe i x m =>
    dsimp only
    split
    · exact rests (by simp [State.reprobe]) (by simp [State.reprobe])
    · exact delivered _ (by simp)

theorem KeepsSizes.stretchExpires {b : Bool} (hsh : s.shape f.work = some sh) (hg : sh.reaches b g = true) :
    KeepsSizes s (s.stretchExpires f g) := by
  obtain ⟨hread, hdone⟩ := Shape.reaches_sizes hg
  refine .of_follow (.stretchExpires (small_without s) s fun n hn hs => ?_) fun hs => ?_
  · rw [hn] at hsh
    obtain ⟨hw, hr⟩ := shape_small hs hsh
    exact ⟨hread.trans hr, hdone.trans (max_le hw hr)⟩
  · refine State.tablesSmall.settle ⟨entriesSmall_of_held (s := s) ?_ (sizeLaw_iff.1 hs).2.1, ?_⟩
    · rw [heldOf_deliver _ (by simp)]
      simp
    · simpa [State.beginSequence, State.beginAttempt] using Engine.small_recovery true

/-! ### The monitor's moves -/

/-- The engine's work changes in its count, its flag or its stretch. -/
theorem KeepsSizes.setTransfer {t' : Transfer} (h : SlotsSmall s t) (hheld : heldOf t.entries = heldOf s.entries)
    (hf : s.engine = .transfer f) (ht : t.engine = .transfer t') (hw : t'.work = f.work) : KeepsSizes s t := by
  refine .of_follow h fun hs => ⟨entriesSmall_of_held hheld (sizeLaw_iff.1 hs).2.1, fun a e i k m ha hpoll => ?_⟩
  rw [ht, Engine.transfer.injEq] at ha
  exact hs.2.2 f e i k m hf (by rw [← hw, ha, hpoll])

theorem KeepsSizes.start (hf : s.engine = .transfer f) :
    KeepsSizes s ((s.setMonitor { s.monitor with state := .owned, lines := linesAfterStart }).countAttempt f) := by
  obtain ⟨t', ht, hw⟩ :=
    engine_countAttempt (s.setMonitor { s.monitor with state := .owned, lines := linesAfterStart }) f
  exact .setTransfer (.trans (.of_slots (by simp)) (.countAttempt _ f)) (by simp) hf ht hw

theorem KeepsSizes.setStretch {x : Option Timer} (hf : s.engine = .transfer f) :
    KeepsSizes s (s.setEngine (.transfer { f with stretch := x })) :=
  .setTransfer (t' := { f with stretch := x }) (.of_slots (by simp)) (by simp) hf (by simp) rfl

/-- The engine rests, or is in recovery. -/
theorem KeepsSizes.rested (h : SlotsSmall s t) (hheld : heldOf t.entries = heldOf s.entries)
    (hengine : t.engine = .idle ∨ ∃ b, t.engine = .recovery b) : KeepsSizes s t :=
  .of_rest h hheld (by
    rcases hengine with h | ⟨b, h⟩
    · exact h ▸ Engine.small_idle
    · exact h ▸ Engine.small_recovery b)

theorem KeepsSizes.beginAttempt (s : State) : KeepsSizes s s.beginAttempt :=
  .rested (.of_slots (by simp)) (by simp) (.inr ⟨true, by simp [State.beginAttempt]⟩)

theorem KeepsSizes.beginSequence (s : State) : KeepsSizes s s.beginSequence :=
  .rested (.of_slots (by simp)) (by simp) (.inr ⟨true, by simp [State.beginSequence, State.beginAttempt]⟩)

theorem KeepsSizes.endAttempt (s : State) (l : Lines) : KeepsSizes s (s.endAttempt l) := by
  simp only [State.endAttempt]
  split
  · exact .settle (.rested (.of_slots (by simp)) (by simp) (.inl (by simp)))
  · split
    · refine .rested (.enterFaulted (small_without s) (.of_slots (by simp))) (by simp) (.inl (engine_enterFaulted _))
    · exact .rested (.of_slots (by simp)) (by simp) (.inr ⟨false, by simp⟩)

theorem KeepsSizes.hangExpires (s : State) : KeepsSizes s s.hangExpires := by
  have hstopped : KeepsSizes s (s.setMonitor { s.monitor with hang := none }) := .of_fields (by simp)
  simp only [State.hangExpires]
  split
  · exact .ite hstopped (hstopped.trans (.beginSequence _))
  · exact .ite (.settle (.of_fields (by simp))) (hstopped.trans (.beginSequence _))
  · exact .ite (hstopped.trans (.beginAttempt _)) hstopped
  all_goals exact hstopped

theorem KeepsSizes.retimeHang (s : State) : KeepsSizes s s.retimeHang := by
  simp only [State.retimeHang]
  split
  · exact .refl s
  · exact .ite (.trans (.of_fields (by simp)) (.hangExpires _)) (.of_fields (by simp))

theorem KeepsSizes.reachForeign (s : State) (l : Lines) : KeepsSizes s ((s.setEngine .idle).reachForeign l) :=
  .rested (.of_slots (by simp)) (by simp) (.inl (by simp))

theorem KeepsSizes.observeStart (s : State) : KeepsSizes s s.observeStart := by
  simp only [State.observeStart]
  split
  · split
    · exact .loseTransfer s _ _ _ fun _ => Nat.zero_le _
    · have hmoved := KeepsSizes.reachForeign s linesAfterStart
      exact .ite (hmoved.trans (.of_fields (by simp))) hmoved
  · exact .refl s

theorem KeepsSizes.observeStop (s : State) : KeepsSizes s s.observeStop := by
  refine .ite ?_ (.refl s)
  split
  case h_1 | h_2 | h_3 => exact .settle (.rested (.of_slots (by simp)) (by simp) (.inl (by simp)))
  case h_4 => exact .of_fields (by simp)
  all_goals exact .refl s

theorem KeepsSizes.observeOther (s : State) (l : Lines) : KeepsSizes s (s.observeOther l) := by
  simp only [State.observeOther]
  split
  · exact .ite (.of_fields (by simp)) (.of_fields (by simp))
  · split
    · exact .loseTransfer s _ _ _ fun _ => Nat.zero_le _
    · exact .of_fields (by simp)
  all_goals exact .of_fields (by simp)

theorem KeepsSizes.observeChange (s : State) (c : LineChange) : KeepsSizes s (s.observeChange c) :=
  .ite (.refl s) (.ite (.observeStart s) (.ite (.observeStop s) (.observeOther s _)))

end Sys2Proof.Machine

/-! ### The quota and the sizes through the commands and events -/

namespace Sys2Proof.Machine

open Sys2Proof

variable {s t z : State} {n : SlotId} {f : Transfer} {p q : Port} {d : Descriptor}

/-! ### The commands -/

theorem KeepsSizes.command {α : Type} {need : Standing} {args : Option α} {body : α → State → State × Reply}
    (h : ∀ a, args = some a → KeepsSizes s (body a s).1) : KeepsSizes s (s.command p need args body) :=
  command_induction (.refl s) (fun _ _ hz => hz.trans (.of_fields (by simp))) fun a _ => h a

/-- The first condition of a list that holds refuses; nothing is refused where it fails and the rest refuses nothing. -/
theorem refusal_eq_none {c : Prop} [Decidable c] {a : Code} {rest : Option Code} :
    (if c then some a else rest) = none ↔ ¬ c ∧ rest = none := by
  split <;> simp [*]

/-- SUBMIT is refused on none of its conditions (Table 1-9). -/
theorem submitRefusal_eq_none : s.submitRefusal p d = none ↔ s.monitor.state ≠ .faulted
    ∧ ∃ x, s.targetAt d.target = some x ∧ x.permits p d.kind = true ∧ (x.health = .quarantined → d.kind = .probe)
      ∧ s.quotaPasses p = true := by
  simp only [State.submitRefusal]
  cases s.targetAt d.target with
  | none => simp [refusal_eq_none]
  | some x => simp [refusal_eq_none]

/-- A descriptor that is taken is within its sizes (R5, Table 1-7). -/
theorem descriptorArg_small {a : SubmitArgs} (h : descriptorArg a = some d) : d.small := by
  obtain ⟨target, -, h⟩ := Option.bind_eq_some_iff.1 h
  obtain ⟨cls, -, h⟩ := Option.bind_eq_some_iff.1 h
  simp only [Option.ite_none_right_eq_some, Option.some.injEq] at h
  obtain ⟨hvalid, rfl⟩ := h
  have hlengths : a.writeLength ≤ Config.dataMax ∧ (a.readLen.extractLsb' 0 6).toNat ≤ Config.dataMax := by
    generalize (a.readLen.extractLsb' 0 6).toNat = read at hvalid ⊢
    simp only [validCombination] at hvalid
    split at hvalid <;> simp only [Bool.and_eq_true, decide_eq_true_eq] at hvalid <;> omega
  exact ⟨(List.length_take_le _ _).trans hlengths.1, hlengths.2⟩

theorem KeepsSizes.submitBody (hd : d.small) : KeepsSizes s (submitBody p d s).1 := by
  simp only [Machine.submitBody]
  split
  · exact .refl s
  · next hnone =>
    split
    · exact .refl s
    · next n _ =>
      obtain ⟨-, x, -, -, -, hquota⟩ := submitRefusal_eq_none.1 hnone
      refine .settle ⟨fun hs => quotaLaw_allocate hs hquota n d, fun hs => sizeLaw_iff.2 ⟨fun m r hr => ?_, ?_⟩⟩
      · rw [request_allocate] at hr
        split at hr
        · cases hr
          exact Request.sizeLaw_iff.2 ⟨hd, fun x hx => by simp [State.newRequest] at hx⟩
        · exact hs.1 m r hr
      · obtain ⟨-, hentries, hengine⟩ := sizeLaw_iff.1 hs
        exact ⟨entriesSmall_of_held (by simp [State.allocate]) hentries, by simpa [State.allocate] using hengine⟩

theorem KeepsSizes.cancelBody (p : Port) (k : Half) : KeepsSizes s (cancelBody p k s).1 := by
  simp only [Machine.cancelBody]
  split
  · exact .refl s
  · next n r _ =>
    split
    · exact .settle (.of_held (.freeSlotOf s n) (by simp) (by simp))
    · exact .of_held (.updRequest fun _ _ => .of_same rfl rfl rfl (.inl rfl)) (by simp) (by simp)
    · exact .refl s

theorem KeepsSizes.fetchBody (p : Port) (k : Half) (keep : Bool) : KeepsSizes s (fetchBody p k keep s).1 := by
  simp only [Machine.fetchBody]
  split
  · exact .refl s
  · split
    · exact .ite (.refl s) (.of_held (.freeSlotOf s _) (by simp) (by simp))
    all_goals exact .refl s

theorem heldOf_setEntry (s : State) (e c : EntryId) (v : MirrorEntry) :
    heldOf (s.setEntry e v).entries c = if c = e then v.use.map fun u => (u.key, u.value) else heldOf s.entries c := by
  change ((s.setEntry e v).entry c).use.map _ = _
  rw [entry_setEntry]
  split <;> rfl

/-- Sponsors leave, and an entry that none is left to sponsor is freed (R54). -/
theorem KeepsSizes.removeSponsor (s : State) (e : EntryId) (p : Port) : KeepsSizes s (s.removeSponsor e p) := by
  simp only [State.removeSponsor]
  split
  · exact .refl s
  · split
    · exact .refl s
    · split
      · refine .of_follow (.of_slots (by simp)) fun hs => ⟨fun c k v hv => ?_, ?_⟩
        · rw [State.freeEntryOf, heldOf_setEntry] at hv
          split at hv
          · cases hv
          · exact (sizeLaw_iff.1 hs).2.1 c k v hv
        · simpa using (sizeLaw_iff.1 hs).2.2
      · exact .of_fields (by simp)

theorem KeepsSizes.endSession (s : State) (p : Port) : KeepsSizes s (s.endSession p) := by
  have hslots : KeepsSizes s (s.endSlots p) :=
    .of_held (KeepsPool.endSlots s p).toSlotsFollow (by simp) (by simp)
  have hlocks (a : State) : KeepsSizes a (a.endLocks p) :=
    .of_held (KeepsPool.endLocks (small_without a) a p).toSlotsFollow (by simp) (by simp)
  have hsponsors (a : State) : KeepsSizes a (a.endSponsorships p) :=
    List.foldlRecOn _ _ (KeepsSizes.refl a) fun _ hb e _ => hb.trans (.removeSponsor _ e p)
  exact ((hslots.trans (hlocks _)).trans (hsponsors _)).trans (.of_fields (by simp [State.endSession]))

theorem KeepsSizes.attachBody (p : Port) : KeepsSizes s (attachBody p s).1 := by
  simp only [Machine.attachBody]
  split
  · exact .ite (.settle ((KeepsSizes.endSession s p).trans (.of_fields (by simp [State.openSession]))))
      (.of_fields (by simp [State.openSession]))
  · exact .refl s

theorem KeepsSizes.release (s : State) (i : TargetId) (p : Port) (c : Option LockEnd) :
    KeepsSizes s (s.release i p c) :=
  .of_held (KeepsPool.release (small_without s) s i p c).toSlotsFollow (by simp) (by simp)

theorem KeepsSizes.readNoticeBody (p : Port) : KeepsSizes s (readNoticeBody p s).1 := by
  simp only [Machine.readNoticeBody]
  split
  · exact .refl s
  · exact .of_fields (by simp)

theorem KeepsSizes.lockBody (p : Port) (a : Byte) (l : Nat) (w : Bool) : KeepsSizes s (lockBody p a l w s).1 := by
  simp only [Machine.lockBody]
  split
  · exact .refl s
  · split
    · exact .refl s
    · split
      · exact .refl s
      · split
        · exact .refl s
        · split
          · exact .settle (.of_fields (by simp))
          · simp only [State.joinOrReport]
            split
            · exact .of_fields (by simp)
            · exact .refl s

theorem KeepsSizes.renewBody (p : Port) (a : Byte) : KeepsSizes s (renewBody p a s).1 := by
  simp only [Machine.renewBody]
  split
  · exact .refl s
  · split
    · exact .refl s
    · split
      · exact .of_fields (by simp)
      · exact .refl s

theorem KeepsSizes.unlockBody (p : Port) (a : Byte) : KeepsSizes s (unlockBody p a s).1 := by
  simp only [Machine.unlockBody]
  split
  · exact .refl s
  · split
    · exact .settle (.release s _ p none)
    · split
      · exact .of_fields (by simp)
      · exact .refl s

theorem KeepsSizes.forceUnlockBody (a : Byte) : KeepsSizes s (forceUnlockBody a s).1 := by
  simp only [Machine.forceUnlockBody]
  split
  · exact .refl s
  · split
    · exact .refl s
    · exact .settle (.release s _ _ _)

theorem keyArg_small {k : KeyArgs} {key : Key} (h : keyArg k = some key) : key.len ≤ Config.mirrorValueMax := by
  obtain ⟨a, -, h⟩ := Option.bind_eq_some_iff.1 h
  simp only [Option.ite_none_right_eq_some, Option.some.injEq] at h
  obtain ⟨⟨-, -, hlen⟩, rfl⟩ := h
  exact hlen

theorem KeepsSizes.mirrorDefineBody {k : Key} (hk : k.len ≤ Config.mirrorValueMax) (p : Port) (x : Sponsor) :
    KeepsSizes s (mirrorDefineBody p k x s).1 := by
  simp only [Machine.mirrorDefineBody]
  split
  · exact .refl s
  · split
    · exact .refl s
    · split
      · exact .settle (.of_fields (by simp))
      · split
        · exact .refl s
        · refine .settle (.of_follow (.of_slots (by simp)) fun hs => ⟨fun c key v hv => ?_, ?_⟩)
          · rw [State.takeEntry, heldOf_setEntry] at hv
            split at hv
            · cases hv
              exact ⟨hk, by simp⟩
            · exact (sizeLaw_iff.1 hs).2.1 c key v hv
          · simpa using (sizeLaw_iff.1 hs).2.2

theorem KeepsSizes.mirrorDropBody (p : Port) (e : EntryId) : KeepsSizes s (mirrorDropBody p e s).1 := by
  simp only [Machine.mirrorDropBody]
  split
  · exact .refl s
  · split
    · exact .refl s
    · exact .settle (.removeSponsor s e p)

theorem KeepsSizes.declareBody (d : Declaration) : KeepsSizes s (declareBody d s).1 := by
  simp only [Machine.declareBody]
  split
  · split
    · exact .refl s
    · exact .settle (.of_held (KeepsPool.redeclare (small_without s) s _ _ d).toSlotsFollow (by simp) (by simp))
  · split
    · exact .refl s
    · exact .of_fields (by simp)

theorem KeepsSizes.removeBody (a : Byte) : KeepsSizes s (removeBody a s).1 := by
  simp only [Machine.removeBody]
  split
  · exact .refl s
  · split
    · exact .refl s
    · exact .of_fields (by simp)

theorem KeepsSizes.clearBody (a : Byte) : KeepsSizes s (clearBody a s).1 := by
  simp only [Machine.clearBody]
  split
  · exact .refl s
  · split
    · exact .settle (.of_held (KeepsPool.quarantineEnd (small_without s) s _).toSlotsFollow (by simp) (by simp))
    · exact .of_fields (by simp)
    · exact .refl s

theorem KeepsSizes.setParameterBody (i : Byte) (k : Param) (ps : Params) : KeepsSizes s (setParameterBody i k ps s).1 := by
  have hset : KeepsSizes s { s with params := ps } := .of_fields ⟨rfl, rfl, rfl⟩
  refine .ite (.refl s) ?_
  cases k with
  | agingLimit => exact hset.trans (.of_held (KeepsPool.ageAll _).toSlotsFollow (by simp [State.actOn]) (by simp [State.actOn]))
  | maintenanceClass | staleMultiple => exact hset.trans (.of_fields (by simp [State.actOn]))
  | hangLimit => exact hset.trans (.retimeHang _)
  | busRate | addressRetries | lossLimit | faultRetry | maxLease | admitted => exact hset

theorem KeepsSizes.busResetBody : KeepsSizes s (busResetBody s).1 := by
  simp only [Machine.busResetBody]
  split
  · exact .beginAttempt s
  · exact .refl s

/-! ### The resets -/

theorem KeepsSizes.resetBlocks (s : State) (l : Lines) (sel : Port → Bool) : KeepsSizes s (s.resetBlocks l sel) := by
  have hrequest (n : SlotId) : (s.resetBlocks l sel).request n = none := by
    simp [State.request, State.slot, State.resetBlocks, Vector.get]
  have htally (p : Port) : (s.resetBlocks l sel).tally p = 0 := by
    simp [State.tally, State.ownedBy, hrequest]
  refine ⟨fun _ => by simp [State.quotaLaw, sharedInUse_eq, htally], fun _ => sizeLaw_iff.2 ⟨fun n q hq => ?_, ?_, ?_⟩⟩
  · rw [hrequest] at hq
    cases hq
  · intro e k v hv
    simp [heldOf, State.resetBlocks, Vector.get] at hv
  · exact Engine.small_idle

theorem KeepsSizes.readLines (s : State) : KeepsSizes s s.readLines :=
  .ite (.of_fields (by simp)) (.of_fields (by simp))

theorem KeepsSizes.restarted (s : State) (l : Lines) (sel : Port → Bool) : KeepsSizes s (s.resetBlocks l sel).readLines :=
  (KeepsSizes.resetBlocks s l sel).trans (.readLines _)

theorem KeepsSizes.enterReset (s : State) (k : ResetHold) : KeepsSizes s (s.enterReset k) :=
  (KeepsSizes.resetBlocks s linesHigh fun _ => false).trans (.of_fields ⟨rfl, rfl, rfl⟩)

theorem KeepsSizes.takeResetPart (s : State) (p : Port) (l : Lines) : KeepsSizes s (s.takeResetPart p l) :=
  (KeepsSizes.restarted s l _).trans (.of_fields ⟨rfl, rfl, rfl⟩)

theorem KeepsSizes.leaveReset (s : State) (straps : BitVec 2) (c : ResetCause) (l : Lines) (sel : PortSet) :
    KeepsSizes s (s.leaveReset straps c l sel) :=
  (KeepsSizes.restarted s l _).trans (.of_fields ⟨rfl, rfl, rfl⟩)

/-! ### The rows -/

theorem KeepsSizes.next (h : (Host.Outcome.next z : Answer) = .next t) (hz : KeepsSizes s z) : KeepsSizes s t :=
  next_inj h ▸ hz

/-- An event is taken, or it is ignored in reset (R174, R175). -/
theorem KeepsSizes.event (h : s.event z = .next t) (hz : KeepsSizes s z) : KeepsSizes s t := .next h (.ite (.refl s) hz)

/-- Every host command keeps both laws. -/
theorem KeepsSizes.exec_header {c : Instr} (hc : headerPort c = some p) (h : exec c s = .next t) : KeepsSizes s t := by
  cases c <;> simp only [headerPort, reduceCtorEq] at hc
  case info | status | getParameter | mirrorFind | mirrorRead | targetQuery =>
    exact .next h (.command fun _ _ => .refl s)
  case attach => exact .next h (.command fun _ _ => .attachBody _)
  case detach | evictPort => exact .next h (.command fun _ _ => .ite (.settle (.endSession s _)) (.refl s))
  case repeatResponse => exact .next h (.ite (.of_fields (by simp)) (.refl s))
  case submit =>
    simp only [exec, execSubmit] at h
    split at h
    · exact .next h (.command fun _ hd => .submitBody (descriptorArg_small hd))
    · cases h
  case cancel => exact .next h (.command fun _ _ => .cancelBody _ _)
  case fetch => exact .next h (.command fun _ _ => .fetchBody _ _ _)
  case readNotice => exact .next h (.command fun _ _ => .readNoticeBody _)
  case setNoticeMask => exact .next h (.command fun _ _ => .of_fields (by simp))
  case lock => exact .next h (.command fun _ _ => .lockBody _ _ _ _)
  case renew => exact .next h (.command fun _ _ => .renewBody _ _)
  case unlock => exact .next h (.command fun _ _ => .unlockBody _ _)
  case mirrorDefine =>
    refine .next h (.command fun a ha => ?_)
    obtain ⟨k, hk, ha⟩ := Option.bind_eq_some_iff.1 ha
    simp only [Option.ite_none_right_eq_some, Option.some.injEq] at ha
    obtain ⟨-, rfl⟩ := ha
    exact .mirrorDefineBody (keyArg_small hk) _ _
  case mirrorDrop => exact .next h (.command fun _ _ => .mirrorDropBody _ _)
  case declareTarget => exact .next h (.command fun _ _ => .declareBody _)
  case removeTarget => exact .next h (.command fun _ _ => .removeBody _)
  case clearQuarantine => exact .next h (.command fun _ _ => .clearBody _)
  case forceUnlock => exact .next h (.command fun _ _ => .forceUnlockBody _)
  case setParameter => exact .next h (.command fun _ _ => .setParameterBody _ _ _)
  case busReset => exact .next h (.command fun _ _ => .busResetBody)
  case resetPart => exact .next h (.command fun _ _ => .of_fields (by simp))
  case unknownCommand =>
    simp only [exec, execUnknownCommand] at h
    split at h
    · cases h
    · exact .next h (.ite (.of_fields (by simp)) (.refl s))
  case checkError => exact .next h (.ite (.of_fields (by simp)) (.refl s))

/-- Every frame event, reset, timer expiry and event of the field bus keeps both laws. -/
theorem KeepsSizes.exec_event {c : Instr} (hc : headerPort c = none) (h : exec c s = .next t) : KeepsSizes s t := by
  cases c <;> simp only [headerPort, reduceCtorEq] at hc
  case frameOpen | statusByteShiftedOut | frameAbandoned | ncsRiseInIdle =>
    exact .event h (.ite (.of_fields (by simp)) (.refl s))
  case frameEnd => exact .event h (.ite (.ite (.takeResetPart s _ _) (.of_fields (by simp))) (.refl s))
  case resetPartTaken => exact .event h (.ite (.takeResetPart s _ _) (.refl s))
  case powerOnReset | nrstLow => exact .next h (.enterReset s _)
  case powerOnResetEnd | nrstRelease =>
    exact .next h (.ite (.ite (.of_fields ⟨rfl, rfl, rfl⟩) (.leaveReset s _ _ _ _)) (.refl s))
  case classAgingExpiry => exact .event h (.of_held (KeepsPool.ageOne s _).toSlotsFollow (by simp) (by simp))
  case lockLeaseExpiry =>
    refine .event h ?_
    split
    · exact .refl s
    · exact .ite (.settle (.release s _ _ _)) (.refl s)
  case mirrorPollDue =>
    refine .event h ?_
    split
    · exact .refl s
    · split
      · exact .refl s
      · exact .ite (.ite (.of_fields (by simp)) (.ite (.of_fields (by simp)) (.settle (.of_fields (by simp))))) (.refl s)
  case staleLimitExpiry =>
    refine .event h ?_
    split
    · exact .refl s
    · exact .ite (.of_fields (by simp)) (.refl s)
  case probeDueExpiry =>
    refine .event h ?_
    split
    · exact .refl s
    · exact .ite (.settle (.of_fields (by simp))) (.refl s)
  case stretchTimeout =>
    refine .event h ?_
    split
    · split
      · next hc =>
        obtain ⟨-, -, hreach⟩ := hc
        obtain ⟨sh, hsh, hg⟩ := (Option.any_eq_true _ _).1 hreach
        exact .stretchExpires hsh hg
      · exact .refl s
    · exact .refl s
  case hangTimerExpiry | nextRecoveryAttempt => exact .event h (.ite (.hangExpires s) (.refl s))
  case idleConfirmationExpiry => exact .event h (.ite (.settle (.of_fields (by simp))) (.refl s))
  case faultRetryExpiry => exact .event h (.ite (.beginAttempt s) (.refl s))
  case transferCompletion =>
    refine .event h ?_
    split
    · exact .refl s
    · next f hf => exact .endTransfer (onBus_iff.1 hf).1 _
  case arbitrationLoss =>
    refine .event h ?_
    split
    · exact .refl s
    · split
      · next hloses =>
        obtain ⟨sh, hsh, hg⟩ := (Option.any_eq_true _ _).1 hloses
        exact .loseTransfer s _ _ _ fun hs => (Shape.losesAfter_sizes hg).trans (write_small hs hsh)
      · exact .refl s
  case start =>
    refine .event h ?_
    split
    · exact .refl s
    · next f hf => exact .start (engine_of_beforeStart hf)
  case lineActivityBeforeStart =>
    refine .event h ?_
    split
    · exact .refl s
    · split <;> exact .loseTransfer s _ _ _ fun _ => Nat.zero_le _
  case recoveryAttemptEnd => exact .event h (.ite (.endAttempt s _) (.refl s))
  case foreignStart => exact .event h (.observeStart s)
  case foreignStop => exact .event h (.observeStop s)
  case lineActivity => exact .event h (.observeChange s _)
  case millisecondBoundary => exact .event h (.of_fields ⟨rfl, rfl, rfl⟩)
  case addressAttemptNack =>
    refine .event h ?_
    split
    · exact .refl s
    · exact .nackAddress s _
  case clockStretchStart =>
    refine .event h ?_
    split
    · exact .refl s
    · next f hf => exact .setStretch (onBus_iff.1 hf).1
  case clockStretchEnd =>
    refine .event h ?_
    split
    · next f hf => exact .ite (.setStretch hf) (.refl s)
    · exact .refl s

/-- Settles O58: only SUBMIT adds to a tally, within the quota, and no report is longer than the work asked for. -/
theorem stepsKeepTheQuotaAndSizeLaws : Obligations.StepsKeepTheQuotaAndSizeLaws := by
  intro s t h
  suffices hkeeps : KeepsSizes s t from ⟨hkeeps.quota, hkeeps.sizes⟩
  simp only [step] at h
  split at h
  · exact .next h (.refl s)
  · next c rest _ =>
    have htaken : KeepsSizes s { s with pending := rest } := .of_fields ⟨rfl, rfl, rfl⟩
    cases hc : headerPort c with
    | none => exact htaken.trans (.exec_event hc h)
    | some p => exact htaken.trans (.exec_header hc h)

end Sys2Proof.Machine

/-! ## What only certain commands write (O54)

Each command and event leaves the parameters, the sessions, the notice masks, the declarations and the mirror keys as they
are, but for those that it is there to write; and a request stands in its slot as long as the issue number does (R3). -/

namespace Sys2Proof.Machine

open Sys2Proof

variable {s t z : State} {n : SlotId} {f : Transfer} {p q : Port} {d : Descriptor}

/-- What certain commands write: the parameters (R26), the generation of a port (R158), whether it is ATTACHED (R159), its
notice mask (R137), the declarations (R82), and the entries with their keys and sponsors (R54). -/
inductive Register where
  | params
  | generation (p : Port)
  | session (p : Port)
  | mask (p : Port)
  | declared
  | sponsored

/-- A register reads as before. -/
def Register.stands (s t : State) : Register → Prop
  | .params => t.params = s.params
  | .generation p => (t.port p).generation = (s.port p).generation
  | .session p => (t.port p).attached = (s.port p).attached
  | .mask p => masksOf t.notices p = masksOf s.notices p
  | .declared => declaredOf t.targets = declaredOf s.targets
  | .sponsored => sponsoredOf t.entries = sponsoredOf s.entries

theorem Register.stands_refl (s : State) (r : Register) : r.stands s s := by cases r <;> exact rfl

theorem Register.stands_trans {r : Register} (h : r.stands s t) (k : r.stands t z) : r.stands s z := by
  cases r <;> exact Eq.trans k h

/-- No slot is allocated, and of the registers only those named are written. -/
structure Keeps (may : Register → Prop) (s t : State) : Prop extends SlotsFollow Result.any s t where
  device : t.hold = s.hold ∧ t.supervisor = s.supervisor ∧ t.cause = s.cause ∧ t.now = s.now
  register : ∀ r, may r ∨ r.stands s t

variable {may : Register → Prop}

theorem Keeps.trans (h : Keeps may s t) (k : Keeps may t z) : Keeps may s z where
  toSlotsFollow := h.toSlotsFollow.trans k.toSlotsFollow
  device := by
    obtain ⟨hhold, hsup, hcause, hnow⟩ := h.device
    obtain ⟨khold, ksup, kcause, know⟩ := k.device
    exact ⟨khold.trans hhold, ksup.trans hsup, kcause.trans hcause, know.trans hnow⟩
  register r := (h.register r).elim .inl fun hr => (k.register r).imp_right (Register.stands_trans hr)

/-- The ports stand, and every other register does that may not be written. -/
theorem Keeps.of_ports (h : SlotsFollow Result.any s t)
    (hdevice : t.hold = s.hold ∧ t.supervisor = s.supervisor ∧ t.cause = s.cause ∧ t.now = s.now ∧ t.ports = s.ports
      ∧ masksOf t.notices = masksOf s.notices)
    (hparams : may .params ∨ t.params = s.params) (hdeclared : may .declared ∨ declaredOf t.targets = declaredOf s.targets)
    (hsponsored : may .sponsored ∨ sponsoredOf t.entries = sponsoredOf s.entries) : Keeps may s t := by
  obtain ⟨hhold, hsup, hcause, hnow, hports, hmasks⟩ := hdevice
  refine ⟨h, ⟨hhold, hsup, hcause, hnow⟩, fun r => ?_⟩
  have hport (p : Port) : t.port p = s.port p := congrFun (port_of_ports hports) p
  cases r with
  | params => exact hparams
  | generation p => exact .inr (congrArg HostPort.generation (hport p))
  | session p => exact .inr (congrArg HostPort.attached (hport p))
  | mask p => exact .inr (congrFun hmasks p)
  | declared => exact hdeclared
  | sponsored => exact hsponsored

/-- The slots go on, and nothing else of these fields is touched. -/
theorem Keeps.of_slots (h : SlotsFollow Result.any s t)
    (k : t.hold = s.hold ∧ t.supervisor = s.supervisor ∧ t.cause = s.cause ∧ t.now = s.now ∧ t.params = s.params
      ∧ t.ports = s.ports ∧ masksOf t.notices = masksOf s.notices ∧ declaredOf t.targets = declaredOf s.targets
      ∧ sponsoredOf t.entries = sponsoredOf s.entries) : Keeps may s t := by
  obtain ⟨hhold, hsup, hcause, hnow, hparams, hports, hmasks, hdeclared, hsponsored⟩ := k
  exact .of_ports h ⟨hhold, hsup, hcause, hnow, hports, hmasks⟩ (.inr hparams) (.inr hdeclared) (.inr hsponsored)

theorem Keeps.of_fields (h : t.slots = s.slots ∧ t.hold = s.hold ∧ t.supervisor = s.supervisor ∧ t.cause = s.cause
    ∧ t.now = s.now ∧ t.params = s.params ∧ t.ports = s.ports ∧ masksOf t.notices = masksOf s.notices
    ∧ declaredOf t.targets = declaredOf s.targets ∧ sponsoredOf t.entries = sponsoredOf s.entries) : Keeps may s t :=
  .of_slots (.of_slots h.1) h.2

theorem Keeps.refl (s : State) : Keeps may s s := .of_fields (by simp)

theorem Keeps.ite {c : Prop} [Decidable c] (h : Keeps may s t) (k : Keeps may s z) : Keeps may s (if c then t else z) := by
  split
  · exact h
  · exact k

theorem Keeps.settle (h : Keeps may s t) : Keeps may s t.settle :=
  h.trans (.of_slots (.settle Result.any_without (.refl _ t)) (by simp))

/-- A port's frame goes on; its session stands. -/
theorem Keeps.updPort {f : HostPort → HostPort}
    (h : ∀ x, (f x).attached = x.attached ∧ (f x).generation = x.generation) : Keeps may s (s.updPort p f) := by
  refine ⟨.of_slots (by simp), by simp, fun r => .inr ?_⟩
  cases r with
  | generation q =>
    rw [Register.stands, port_updPort]
    split
    · next e => rw [(h _).2, e]
    · rfl
  | session q =>
    rw [Register.stands, port_updPort]
    split
    · next e => rw [(h _).1, e]
    · rfl
  | params | mask q | declared | sponsored => simp [Register.stands]

theorem Keeps.respond (s : State) (p : Port) (r : Reply) : Keeps may s (s.respond p r) := .updPort (by simp)

theorem Keeps.shiftOut (s : State) (p : Port) (b : List Byte) : Keeps may s (s.shiftOut p b) := .updPort (by simp)

theorem Keeps.command {α : Type} {need : Standing} {args : Option α} {body : α → State → State × Reply}
    (h : ∀ a, args = some a → Keeps may s (body a s).1) : Keeps may s (s.command p need args body) :=
  command_induction (.refl s) (fun _ _ hz => hz.trans (.respond _ p _)) fun a _ => h a

/-! ### The commands that write none of them -/

theorem Keeps.cancelBody (p : Port) (k : Half) : Keeps may s (cancelBody p k s).1 := by
  simp only [Machine.cancelBody]
  split
  · exact .refl s
  · next n r _ =>
    split
    · exact .settle (.of_slots (.freeSlotOf s n) (by simp))
    · exact .of_slots (.updRequest fun _ _ => .of_same rfl rfl rfl (.inl rfl)) (by simp)
    · exact .refl s

theorem Keeps.fetchBody (p : Port) (k : Half) (keep : Bool) : Keeps may s (fetchBody p k keep s).1 := by
  simp only [Machine.fetchBody]
  split
  · exact .refl s
  · split
    · exact .ite (.refl s) (.of_slots (.freeSlotOf s _) (by simp))
    all_goals exact .refl s

theorem Keeps.release (s : State) (i : TargetId) (p : Port) (c : Option LockEnd) : Keeps may s (s.release i p c) :=
  .of_slots (KeepsPool.release Result.any_without s i p c).toSlotsFollow (by simp)

theorem Keeps.readNoticeBody (p : Port) : Keeps may s (readNoticeBody p s).1 := by
  simp only [Machine.readNoticeBody]
  split
  · exact .refl s
  · exact .of_fields (by simp)

theorem Keeps.lockBody (p : Port) (a : Byte) (l : Nat) (w : Bool) : Keeps may s (lockBody p a l w s).1 := by
  simp only [Machine.lockBody]
  split
  · exact .refl s
  · split
    · exact .refl s
    · split
      · exact .refl s
      · split
        · exact .refl s
        · split
          · exact .settle (.of_fields (by simp [State.grant]))
          · simp only [State.joinOrReport]
            split
            · exact .of_fields (by simp)
            · exact .refl s

theorem Keeps.renewBody (p : Port) (a : Byte) : Keeps may s (renewBody p a s).1 := by
  simp only [Machine.renewBody]
  split
  · exact .refl s
  · split
    · exact .refl s
    · split
      · exact .of_fields (by simp [State.grant])
      · exact .refl s

theorem Keeps.unlockBody (p : Port) (a : Byte) : Keeps may s (unlockBody p a s).1 := by
  simp only [Machine.unlockBody]
  split
  · exact .refl s
  · split
    · exact .settle (.release s _ p none)
    · split
      · exact .of_fields (by simp [State.leaveWait])
      · exact .refl s

theorem Keeps.forceUnlockBody (a : Byte) : Keeps may s (forceUnlockBody a s).1 := by
  simp only [Machine.forceUnlockBody]
  split
  · exact .refl s
  · split
    · exact .refl s
    · exact .settle (.release s _ _ _)

theorem Keeps.clearBody (a : Byte) : Keeps may s (clearBody a s).1 := by
  simp only [Machine.clearBody]
  split
  · exact .refl s
  · split
    · exact .settle (.of_slots (KeepsPool.quarantineEnd Result.any_without s _).toSlotsFollow (by simp))
    · exact .of_fields (by simp)
    · exact .refl s

theorem Keeps.busResetBody : Keeps may s (busResetBody s).1 := by
  simp only [Machine.busResetBody]
  split
  · exact .of_fields (by simp [State.beginAttempt])
  · exact .refl s

/-! ### The commands that write one -/

theorem Keeps.setMask (h : may (.mask p)) (v : NoticePort) : Keeps may s (s.setNoticePort p v) := by
  refine ⟨.of_slots (by simp), by simp, fun r => ?_⟩
  cases r with
  | mask q =>
    by_cases hq : q = p
    · exact .inl (hq ▸ h)
    · exact .inr (by simp [Register.stands, State.setNoticePort, masksOf, hq])
  | generation q | session q => exact .inr (by rw [Register.stands, State.port, State.port]; simp)
  | params | declared | sponsored => exact .inr (by simp [Register.stands])

theorem Keeps.declareBody (h : may .declared) (d : Declaration) : Keeps may s (declareBody d s).1 := by
  simp only [Machine.declareBody]
  split
  · split
    · exact .refl s
    · exact .settle (.of_ports (KeepsPool.redeclare Result.any_without s _ _ d).toSlotsFollow (by simp) (.inr (by simp))
        (.inl h) (.inr (by simp)))
  · split
    · exact .refl s
    · exact .of_ports (.of_slots (by simp)) (by simp) (.inr (by simp)) (.inl h) (.inr (by simp))

theorem Keeps.removeBody (h : may .declared) (a : Byte) : Keeps may s (removeBody a s).1 := by
  simp only [Machine.removeBody]
  split
  · exact .refl s
  · split
    · exact .refl s
    · exact .of_ports (.of_slots (by simp)) (by simp) (.inr (by simp)) (.inl h) (.inr (by simp))

theorem Keeps.mirrorDefineBody (h : may .sponsored) (p : Port) (k : Key) (x : Sponsor) :
    Keeps may s (mirrorDefineBody p k x s).1 := by
  simp only [Machine.mirrorDefineBody]
  split
  · exact .refl s
  · split
    · exact .refl s
    · split
      · exact .settle (.of_ports (.of_slots (by simp)) (by simp) (.inr (by simp)) (.inr (by simp)) (.inl h))
      · split
        · exact .refl s
        · exact .settle (.of_ports (.of_slots (by simp)) (by simp) (.inr (by simp)) (.inr (by simp)) (.inl h))

theorem Keeps.mirrorDropBody (h : may .sponsored) (p : Port) (e : EntryId) : Keeps may s (mirrorDropBody p e s).1 := by
  simp only [Machine.mirrorDropBody]
  split
  · exact .refl s
  · split
    · exact .refl s
    · exact .settle (.of_ports (.of_slots (by simp)) (by simp [masksOf_removeSponsor]) (.inr (by simp)) (.inr (by simp)) (.inl h))

theorem Keeps.setParameterBody (h : may .params) (i : Byte) (k : Param) (ps : Params) :
    Keeps may s (setParameterBody i k ps s).1 := by
  have hset : Keeps may s { s with params := ps } :=
    .of_ports (.of_slots rfl) ⟨rfl, rfl, rfl, rfl, rfl, rfl⟩ (.inl h) (.inr rfl) (.inr rfl)
  refine .ite (.refl s) ?_
  cases k with
  | agingLimit => exact hset.trans (.of_slots (KeepsPool.ageAll _).toSlotsFollow (by simp [State.actOn]))
  | maintenanceClass | staleMultiple => exact hset.trans (.of_fields (by simp [State.actOn]))
  | hangLimit => exact hset.trans (.of_slots (SlotsFollow.retimeHang Result.any_without _) (by simp [State.actOn]))
  | busRate | addressRetries | lossLimit | faultRetry | maxLease | admitted => exact hset

theorem Keeps.endSession (hs : may (.session p)) (hm : may (.mask p)) (hx : may .sponsored) :
    Keeps may s (s.endSession p) := by
  refine ⟨(KeepsPool.endSession Result.any_without s p).toSlotsFollow, by simp, fun r => ?_⟩
  cases r with
  | params => exact .inr (by simp [Register.stands])
  | generation q =>
    refine .inr ?_
    rw [Register.stands, port_endSession]
    split
    · next e => rw [e]
    · rfl
  | session q =>
    by_cases hq : q = p
    · exact .inl (hq ▸ hs)
    · exact .inr (by rw [Register.stands, port_endSession, if_neg hq])
  | mask q =>
    by_cases hq : q = p
    · exact .inl (hq ▸ hm)
    · exact .inr (masksOf_endSession s p q hq)
  | declared => exact .inr (declaredOf_endSession s p)
  | sponsored => exact .inl hx

theorem Keeps.openSession (hg : may (.generation p)) (hs : may (.session p)) : Keeps may s (s.openSession p) := by
  refine ⟨.of_slots (by simp), by simp, fun r => ?_⟩
  have hport (q : Port) (hq : q ≠ p) : (s.openSession p).port q = s.port q := by
    rw [State.openSession, port_updPort, if_neg hq]
  cases r with
  | generation q =>
    by_cases hq : q = p
    · exact .inl (hq ▸ hg)
    · exact .inr (congrArg HostPort.generation (hport q hq))
  | session q =>
    by_cases hq : q = p
    · exact .inl (hq ▸ hs)
    · exact .inr (congrArg HostPort.attached (hport q hq))
  | params | mask q | declared | sponsored => exact .inr (by simp [Register.stands])

theorem Keeps.attachBody (hg : may (.generation p)) (hs : may (.session p)) (hm : may (.mask p)) (hx : may .sponsored) :
    Keeps may s (attachBody p s).1 := by
  simp only [Machine.attachBody]
  split
  · exact .ite (.settle ((Keeps.endSession hs hm hx).trans (.openSession hg hs))) (.openSession hg hs)
  · exact .refl s

/-! ### The rows -/

/-- What a command or event writes. -/
def Instr.writes (c : Instr) : Register → Prop
  | .params => ∃ p i v, c = .setParameter p i v
  | .generation p => c = .attach p
  | .session p => c = .attach p ∨ c = .detach p ∨ ∃ q b, c = .evictPort q b ∧ portNumber p = b
  | .mask p => c = .attach p ∨ c = .detach p ∨ (∃ q b, c = .evictPort q b ∧ portNumber p = b) ∨ ∃ m, c = .setNoticeMask p m
  | .declared => (∃ p d, c = .declareTarget p d) ∨ ∃ p a, c = .removeTarget p a
  | .sponsored => (∃ p k a f m, c = .mirrorDefine p k a f m) ∨ (∃ p b, c = .mirrorDrop p b)
      ∨ (∃ p, c = .attach p ∨ c = .detach p) ∨ ∃ p b, c = .evictPort p b

theorem Keeps.next (h : (Host.Outcome.next z : Answer) = .next t) (hz : Keeps may s z) : Keeps may s t := next_inj h ▸ hz

theorem Keeps.event (h : s.event z = .next t) (hz : Keeps may s z) : Keeps may s t := .next h (.ite (.refl s) hz)

theorem evictArg_eq_some {b : Byte} (h : evictArg p b = some q) : portNumber q = b ∧ q ≠ p := by
  simp only [evictArg, Option.ite_none_right_eq_some, Option.some.injEq] at h
  obtain ⟨⟨hb, hne⟩, rfl⟩ := h
  refine ⟨?_, hne⟩
  have hcases : b = 0#8 ∨ b = 1#8 ∨ b = 2#8 ∨ b = 3#8 := by bv_omega
  rcases hcases with rfl | rfl | rfl | rfl <;> rfl

/-- Every host command but SUBMIT writes no more than it is there to write. -/
theorem Keeps.exec_header {c : Instr} (hc : headerPort c = some p) (hsubmit : ∀ q a, c ≠ .submit q a)
    (h : exec c s = .next t) : Keeps (Instr.writes c) s t := by
  cases c <;> simp only [headerPort, reduceCtorEq] at hc
  case info | status | getParameter | mirrorFind | mirrorRead | targetQuery =>
    exact .next h (.command fun _ _ => .refl s)
  case attach =>
    exact .next h (.command fun _ _ => .attachBody rfl (.inl rfl) (.inl rfl) (.inr (.inr (.inl ⟨_, .inl rfl⟩))))
  case detach =>
    exact .next h (.command fun _ _ => .ite
      (.settle (.endSession (.inr (.inl rfl)) (.inr (.inl rfl)) (.inr (.inr (.inl ⟨_, .inr rfl⟩))))) (.refl s))
  case evictPort =>
    refine .next h (.command fun q hq => ?_)
    have hnamed := (evictArg_eq_some hq).1
    exact .ite (.settle (.endSession (.inr (.inr ⟨_, _, rfl, hnamed⟩)) (.inr (.inr (.inl ⟨_, _, rfl, hnamed⟩)))
      (.inr (.inr (.inr ⟨_, _, rfl⟩))))) (.refl s)
  case repeatResponse => exact .next h (.ite (.shiftOut s _ _) (.refl s))
  case submit => exact absurd rfl (hsubmit _ _)
  case cancel => exact .next h (.command fun _ _ => .cancelBody _ _)
  case fetch => exact .next h (.command fun _ _ => .fetchBody _ _ _)
  case readNotice => exact .next h (.command fun _ _ => .readNoticeBody _)
  case setNoticeMask => exact .next h (.command fun _ _ => .setMask (.inr (.inr (.inr ⟨_, rfl⟩))) _)
  case lock => exact .next h (.command fun _ _ => .lockBody _ _ _ _)
  case renew => exact .next h (.command fun _ _ => .renewBody _ _)
  case unlock => exact .next h (.command fun _ _ => .unlockBody _ _)
  case mirrorDefine => exact .next h (.command fun _ _ => .mirrorDefineBody (.inl ⟨_, _, _, _, _, rfl⟩) _ _ _)
  case mirrorDrop => exact .next h (.command fun _ _ => .mirrorDropBody (.inr (.inl ⟨_, _, rfl⟩)) _ _)
  case declareTarget => exact .next h (.command fun _ _ => .declareBody (.inl ⟨_, _, rfl⟩) _)
  case removeTarget => exact .next h (.command fun _ _ => .removeBody (.inr ⟨_, _, rfl⟩) _)
  case clearQuarantine => exact .next h (.command fun _ _ => .clearBody _)
  case forceUnlock => exact .next h (.command fun _ _ => .forceUnlockBody _)
  case setParameter => exact .next h (.command fun _ _ => .setParameterBody ⟨_, _, _, rfl⟩ _ _ _)
  case busReset => exact .next h (.command fun _ _ => .busResetBody)
  case resetPart => exact .next h (.command fun _ _ => .updPort (f := fun h => { h with resetPending := true }) fun _ => ⟨rfl, rfl⟩)
  case unknownCommand =>
    simp only [exec, execUnknownCommand] at h
    split at h
    · cases h
    · exact .next h (.ite (.respond s _ _) (.refl s))
  case checkError => exact .next h (.ite ((Keeps.shiftOut s _ _).trans (.updPort fun _ => ⟨rfl, rfl⟩)) (.refl s))

/-- The resets: what they write is told apart. -/
def Instr.resets (s : State) (c : Instr) : Prop :=
  c = .powerOnReset ∨ c = .nrstLow ∨ (∃ a l n, c = .powerOnResetEnd a l n ∨ c = .nrstRelease a l n)
    ∨ (∃ p l, c = .resetPartTaken p l) ∨ ∃ p, c = .frameEnd p ∧ (s.port p).resetPending = true

/-- Every event but the resets and the millisecond boundary writes none of the registers. -/
theorem Keeps.exec_event {c : Instr} (hc : headerPort c = none) (hr : ¬ Instr.resets s c) (hm : c ≠ .millisecondBoundary)
    (h : exec c s = .next t) : Keeps may s t := by
  cases c <;> simp only [headerPort, reduceCtorEq] at hc
  case frameOpen | statusByteShiftedOut | frameAbandoned | ncsRiseInIdle =>
    exact .event h (.ite (.updPort (by simp [HostPort.closed])) (.refl s))
  case frameEnd q =>
    have hpending : ¬ (s.port q).resetPending = true := fun e => hr (.inr (.inr (.inr (.inr ⟨q, rfl, e⟩))))
    rw [exec, execFrameEnd, if_neg hpending] at h
    exact .event h (.ite (.updPort (by simp [HostPort.closed])) (.refl s))
  case resetPartTaken => exact absurd (.inr (.inr (.inr (.inl ⟨_, _, rfl⟩)))) hr
  case powerOnReset => exact absurd (.inl rfl) hr
  case nrstLow => exact absurd (.inr (.inl rfl)) hr
  case powerOnResetEnd => exact absurd (.inr (.inr (.inl ⟨_, _, _, .inl rfl⟩))) hr
  case nrstRelease => exact absurd (.inr (.inr (.inl ⟨_, _, _, .inr rfl⟩))) hr
  case millisecondBoundary => exact absurd rfl hm
  case classAgingExpiry => exact .event h (.of_slots (KeepsPool.ageOne s _).toSlotsFollow (by simp))
  case lockLeaseExpiry =>
    refine .event h ?_
    split
    · exact .refl s
    · exact .ite (.settle (.release s _ _ _)) (.refl s)
  case mirrorPollDue =>
    refine .event h ?_
    split
    · exact .refl s
    · split
      · exact .refl s
      · exact .ite (.ite (.of_fields (by simp)) (.ite (.of_fields (by simp)) (.settle (.of_fields (by simp))))) (.refl s)
  case staleLimitExpiry =>
    refine .event h ?_
    split
    · exact .refl s
    · exact .ite (.of_fields (by simp)) (.refl s)
  case probeDueExpiry =>
    refine .event h ?_
    split
    · exact .refl s
    · exact .ite (.settle (.of_fields (by simp))) (.refl s)
  case stretchTimeout =>
    refine .event h ?_
    split
    · exact .ite (.of_slots (.stretchExpires Result.any_without s fun _ _ => trivial) (by simp)) (.refl s)
    · exact .refl s
  case hangTimerExpiry | nextRecoveryAttempt =>
    exact .event h (.ite (.of_slots (.hangExpires Result.any_without s) (by simp)) (.refl s))
  case idleConfirmationExpiry => exact .event h (.ite (.settle (.of_fields (by simp))) (.refl s))
  case faultRetryExpiry => exact .event h (.ite (.of_fields (by simp)) (.refl s))
  case transferCompletion =>
    refine .event h ?_
    split
    · exact .refl s
    · exact .of_slots (.endTransfer Result.any_without s _ _ fun _ _ _ _ _ _ => trivial) (by simp)
  case arbitrationLoss =>
    refine .event h ?_
    split
    · exact .refl s
    · exact .ite (.of_slots (.loseTransfer Result.any_without s _ _ _ trivial) (by simp)) (.refl s)
  case start =>
    refine .event h ?_
    split
    · exact .refl s
    · exact .of_slots (.trans (.of_slots (by simp)) (.countAttempt _ _)) (by simp)
  case lineActivityBeforeStart =>
    refine .event h ?_
    split
    · exact .refl s
    · split <;> exact .of_slots (.loseTransfer Result.any_without s _ _ _ trivial) (by simp)
  case recoveryAttemptEnd => exact .event h (.ite (.of_slots (.endAttempt Result.any_without s _) (by simp)) (.refl s))
  case foreignStart => exact .event h (.of_slots (.observeStart Result.any_without s) (by simp))
  case foreignStop => exact .event h (.of_slots (.observeStop Result.any_without s) (by simp))
  case lineActivity => exact .event h (.of_slots (.observeChange Result.any_without s _) (by simp))
  case addressAttemptNack =>
    refine .event h ?_
    split
    · exact .refl s
    · exact .of_slots (.nackAddress Result.any_without s _) (by simp)
  case clockStretchStart =>
    refine .event h ?_
    split
    · exact .refl s
    · exact .of_fields (by simp)
  case clockStretchEnd =>
    refine .event h ?_
    split
    · exact .ite (.of_fields (by simp)) (.refl s)
    · exact .refl s

/-! ### SUBMIT, and every command -/

/-- Of the registers only those named are written, and a request that stands in its slot is the same request (R3). -/
structure Writes (may : Register → Prop) (s t : State) : Prop where
  device : t.hold = s.hold ∧ t.supervisor = s.supervisor ∧ t.cause = s.cause ∧ t.now = s.now
  register : ∀ r, may r ∨ r.stands s t
  request : ∀ n r q, s.request n = some r → t.request n = some q → r.follows Result.any q

theorem Keeps.writes (h : Keeps may s t) : Writes may s t where
  device := h.device
  register := h.register
  request n r q hr hq := by
    obtain ⟨k, hk, hfollows⟩ := h.request n q hq
    rw [hr, Option.some.injEq] at hk
    exact hk ▸ hfollows

/-- A request is taken into a FREE slot (R3, R11). -/
theorem Keeps.writes_allocate (hn : s.request n = none) (h : Keeps may (s.allocate p n d) t) : Writes may s t := by
  have hallocate (r : Register) : r.stands s (s.allocate p n d) := by
    cases r with
    | generation q | session q => rw [Register.stands, State.port, State.port]; simp
    | params | mask q | declared | sponsored => simp [Register.stands]
  refine ⟨by simpa using h.device, fun r => (h.register r).imp_right (Register.stands_trans (hallocate r)),
    fun m r q hr hq => ?_⟩
  have hm : m ≠ n := fun e => by
    rw [e, hn] at hr
    cases hr
  obtain ⟨k, hk, hfollows⟩ := h.request m q hq
  rw [request_allocate, if_neg hm, hr, Option.some.injEq] at hk
  exact hk ▸ hfollows

theorem writes_submit {a : SubmitArgs} (h : exec (.submit p a) s = .next t) : Writes may s t := by
  simp only [exec, execSubmit] at h
  split at h
  · refine next_inj h ▸ ?_
    have hclosed : ∃ z, (z = s ∨ ∃ n d, s.request n = none ∧ z = s.allocate p n d)
        ∧ Keeps may z (s.command p .session (descriptorArg a) (submitBody p)) := by
      refine command_induction (P := fun t => ∃ z, (z = s ∨ ∃ n d, s.request n = none ∧ z = s.allocate p n d) ∧ Keeps may z t)
        ⟨s, .inl rfl, .refl s⟩ (fun t r ⟨z, hz, hkeeps⟩ => ⟨z, hz, hkeeps.trans (.respond t p r)⟩) fun d _ _ => ?_
      simp only [Machine.submitBody]
      split
      · exact ⟨s, .inl rfl, .refl s⟩
      · split
        · exact ⟨s, .inl rfl, .refl s⟩
        · next n hn => exact ⟨_, .inr ⟨n, d, (freeSlot_eq_some.1 hn).1, rfl⟩, .settle (.refl _)⟩
    obtain ⟨z, hz, hkeeps⟩ := hclosed
    rcases hz with rfl | ⟨n, d, hn, rfl⟩
    · exact hkeeps.writes
    · exact hkeeps.writes_allocate hn
  · cases h

/-- The count of the millisecond boundaries after a command or event (R26). -/
def Instr.nowAfter (c : Instr) (s : State) : Nat := if c = .millisecondBoundary ∧ s.inReset = false then s.now + 1 else s.now

/-- Every command and event but the resets writes what it is there to write, the time apart. -/
theorem exec_writes {c : Instr} (hr : ¬ Instr.resets s c) (h : exec c s = .next t) :
    Writes (Instr.writes c) { s with now := Instr.nowAfter c s } t := by
  by_cases hm : c = .millisecondBoundary
  · subst hm
    have ht : t = { s with now := Instr.nowAfter .millisecondBoundary s } := by
      refine (next_inj h).symm.trans ?_
      cases hreset : s.inReset <;> simp [hreset, Instr.nowAfter]
    exact ht ▸ (Keeps.refl _).writes
  · have hnow : Instr.nowAfter c s = s.now := if_neg fun k => hm k.1
    rw [hnow]
    cases hc : headerPort c with
    | none => exact (Keeps.exec_event hc hr hm h).writes
    | some p =>
      by_cases hsubmit : ∃ q a, c = .submit q a
      · obtain ⟨q, a, rfl⟩ := hsubmit
        exact writes_submit h
      · exact (Keeps.exec_header hc (fun q a e => hsubmit ⟨q, a, e⟩) h).writes

/-- A declaration that stands, told by its fields (R76). -/
theorem declared_iff {x y : Option Target} : y.map Target.declared = x.map Target.declared ↔ (x = none ↔ y = none)
    ∧ ∀ a b, x = some a → y = some b → b.addr = a.addr ∧ b.speed = a.speed ∧ b.stretchLimit = a.stretchLimit
      ∧ b.threshold = a.threshold ∧ b.probeInterval = a.probeInterval ∧ b.readSet = a.readSet ∧ b.writeSet = a.writeSet := by
  cases x with
  | none => cases y <;> simp
  | some a =>
    cases y with
    | none => simp
    | some b => simp [Target.declared]

/-- Settles O54: each block's registers are written by the commands that own them. -/
theorem onlyTheseCommandsWrite : Obligations.OnlyTheseCommandsWrite := by
  intro c s t h hpor hnrst hends htaken hframe
  have hresets : ¬ Instr.resets s c := by
    rintro (e | e | ⟨a, l, n, e | e⟩ | ⟨p, l, e⟩ | ⟨p, e, hp⟩)
    · exact hpor e
    · exact hnrst e
    · exact (hends a l n).1 e
    · exact (hends a l n).2 e
    · exact htaken p l e
    · rw [hframe p e] at hp
      cases hp
  obtain ⟨⟨hhold, hsup, hcause, hnow⟩, hregister, hrequest⟩ := exec_writes hresets h
  have stands {r : Register} (hr : ¬ Instr.writes c r) := (hregister r).resolve_left hr
  refine ⟨hhold, hsup, hcause, fun hc => stands (r := .params) ?_, hnow, fun p hc => stands (r := .generation p) hc,
    fun p ha hd he => ⟨stands (r := .session p) ?_, fun hm => stands (r := .mask p) ?_⟩, fun hd hr => ?_,
    fun hdef hdrop hses hevict e => ?_, fun n r q hr hq _ => ?_⟩
  · rintro ⟨p, i, v, e⟩
    exact hc p i v e
  · rintro (e | e | ⟨q, b, e, hb⟩)
    · exact ha e
    · exact hd e
    · exact he q b e hb
  · rintro (e | e | ⟨q, b, e, hb⟩ | ⟨m, e⟩)
    · exact ha e
    · exact hd e
    · exact he q b e hb
    · exact hm m e
  · have hdeclared : Register.declared.stands _ t := stands fun e => e.elim (fun ⟨p, d, e⟩ => hd p d e) fun ⟨p, a, e⟩ => hr p a e
    exact fun u => declared_iff.1 (congrFun hdeclared u)
  · have hsponsored : Register.sponsored.stands _ t := stands ?_
    · exact Prod.ext_iff.1 (congrFun hsponsored e)
    · rintro (⟨p, k, a, f, m, e⟩ | ⟨p, b, e⟩ | ⟨p, e | e⟩ | ⟨p, b, e⟩)
      · exact hdef p k a f m e
      · exact hdrop p b e
      · exact (hses p).1 e
      · exact (hses p).2 e
      · exact hevict p b e
  · have hfollows := hrequest n r q hr hq
    exact ⟨hfollows.owner, hfollows.generation, hfollows.desc⟩

end Sys2Proof.Machine

/-! ## Tickets, and the pool in numbers (O18, O21, O22, O23) -/

namespace Sys2Proof.Machine

open Sys2Proof

variable {s t : State} {n : SlotId} {p : Port} {r : Request} {ticket : Half}

/-! ### The pool in numbers (R1, R8) -/

/-- Each slot is FREE or attributed to one port. -/
theorem countP_slots (s : State) (l : List SlotId) :
    l.countP (fun n => (s.request n).isNone) + (l.countP (s.ownedBy .h0) + l.countP (s.ownedBy .h1)
      + l.countP (s.ownedBy .h2) + l.countP (s.ownedBy .h3)) = l.length := by
  induction l with
  | nil => rfl
  | cons n l ih =>
    have hone (p : Port) : s.ownedBy p n = (s.request n).any fun r => r.owner == p := rfl
    simp only [List.countP_cons, List.length_cons, hone]
    cases hr : s.request n with
    | none =>
      simp
      omega
    | some r =>
      cases ho : r.owner <;> simp [ho] <;> omega

theorem freeSlots_add_tallies (s : State) :
    s.freeSlots + (s.tally .h0 + s.tally .h1 + s.tally .h2 + s.tally .h3) = 48 :=
  (countP_slots s _).trans List.length_finRange

/-- The shared slots bound all tallies together, and below its reserve a port leaves more. -/
theorem tallies_le (s : State) (p : Port) (k : Nat) (h : s.tally p + k ≤ (s.tally p - 8) + 8) :
    s.tally .h0 + s.tally .h1 + s.tally .h2 + s.tally .h3 + k ≤ s.sharedInUse + 32 := by
  have hle (q : Port) : s.tally q ≤ (s.tally q - 8) + 8 := le_tsub_add
  rw [sharedInUse_eq]
  cases p <;> linarith only [h, hle .h0, hle .h1, hle .h2, hle .h3]

theorem tally_sub_le (s : State) (p : Port) : s.tally p - 8 ≤ s.sharedInUse := by
  have hnonneg (q : Port) : 0 ≤ s.tally q - 8 := Nat.zero_le _
  rw [sharedInUse_eq]
  cases p <;> linarith only [hnonneg .h0, hnonneg .h1, hnonneg .h2, hnonneg .h3]

/-- Settles O18: the slots are counted by what they hold, and the shared slots bound the tallies. -/
theorem poolAddsUp : Obligations.PoolAddsUp := by
  refine ⟨freeSlots_add_tallies, fun s p hquota => ⟨?_, fun hpass => ?_⟩⟩
  · have hexcess := tally_sub_le s p
    have hmax : s.sharedInUse ≤ 16 := hquota
    omega
  · have hmax : s.sharedInUse ≤ 16 := hquota
    have hsum := freeSlots_add_tallies s
    have hle : s.tally .h0 + s.tally .h1 + s.tally .h2 + s.tally .h3 < 48 := by
      rcases hpass with hreserve | hshared
      · have := tallies_le s p 1 (by omega)
        omega
      · have := tallies_le s p 0 le_tsub_add
        omega
    have hpos : 0 < s.freeSlots := by omega
    obtain ⟨n, -, hn⟩ := List.countP_pos_iff.1 hpos
    exact ⟨n, Option.isNone_iff_eq_none.1 hn⟩

/-! ### Tickets (R9, Table 10-5) -/

theorem ofBits_eq_iff {b : BitVec 2} : Port.ofBits b = p ↔ b.toNat = p.index.val := by
  revert b
  cases p <;> decide

theorem toNat_ticketOf (p : Port) (n : SlotId) (i : Byte) :
    (ticketOf p n i).toNat = p.index.val * 16384 + n.val * 256 + i.toNat := by
  have hp : p.index.val % 4 = p.index.val := Nat.mod_eq_of_lt p.index.isLt
  have hn : n.val % 64 = n.val := Nat.mod_eq_of_lt (by omega)
  rw [ticketOf, BitVec.toNat_append, BitVec.toNat_append, ← Nat.shiftLeft_add_eq_or_of_lt i.isLt,
    ← Nat.shiftLeft_add_eq_or_of_lt (BitVec.isLt _), BitVec.toNat_ofNat, BitVec.toNat_ofNat, Nat.shiftLeft_eq, Nat.shiftLeft_eq]
  omega

/-- The three fields of a ticket make it up. -/
theorem ticket_fields {i : Byte} : ticket.toNat = p.index.val * 16384 + n.val * 256 + i.toNat ↔
    Port.ofBits (ticket.extractLsb' 14 2) = p ∧ (ticket.extractLsb' 8 6).toNat = n.val ∧ ticket.extractLsb' 0 8 = i := by
  rw [ofBits_eq_iff, ← BitVec.toNat_inj]
  simp only [BitVec.extractLsb'_toNat, Nat.shiftRight_eq_div_pow]
  have hp := p.index.isLt
  have hn := n.isLt
  have hi := i.isLt
  have ht := ticket.isLt
  omega

/-- The five tests of a ticket (R9). -/
theorem ticketSlot_eq_some : s.ticketSlot p ticket = some (n, r) ↔
    ticket.toNat = p.index.val * 16384 + n.val * 256 + (s.slot n).issue.toNat ∧ s.request n = some r ∧ r.owner = p
      ∧ r.generation = (s.port p).generation := by
  constructor
  · intro h
    simp only [State.ticketSlot] at h
    split at h
    · split at h
      · cases h
      · next hr =>
        simp only [Option.ite_none_right_eq_some, Bool.and_eq_true, beq_iff_eq, Option.some.injEq, Prod.mk.injEq] at h
        obtain ⟨⟨⟨⟨hport, hown⟩, hgen⟩, hissue⟩, rfl, rfl⟩ := h
        exact ⟨ticket_fields.2 ⟨hport, rfl, hissue.symm⟩, hr, hown, hgen⟩
    · cases h
  · rintro ⟨hticket, hr, hown, hgen⟩
    obtain ⟨hport, hnumber, hissue⟩ := ticket_fields.1 hticket
    simp [State.ticketSlot, hnumber, hr, hport, hown, hgen, hissue]

/-- Settles O21: the three fields of a ticket, and its slot's owner and session. -/
theorem ticketTest : Obligations.TicketTest := by
  refine ⟨fun s p ticket n r => ticketSlot_eq_some, fun s p ticket flags h ha hnone => ⟨?_, ?_⟩⟩
  · change Host.Outcome.next _ = _
    rw [command_taken h (standing_session ha) rfl]
    simp [cancelBody, hnone, Reply.plain]
  · change Host.Outcome.next _ = _
    rw [command_taken h (standing_session ha) rfl]
    simp [fetchBody, hnone, Reply.plain]

/-! ### CANCEL and FETCH by the slot's state (R18, R20) -/

theorem exec_cancel (h : s.takesHeader p = true) (ha : (s.port p).attached = true) (ticket : Half) :
    exec (.cancel p ticket) s = .next ((cancelBody p ticket s).1.respond p (cancelBody p ticket s).2) :=
  congrArg Host.Outcome.next (command_taken h (standing_session ha) rfl)

theorem exec_fetch (h : s.takesHeader p = true) (ha : (s.port p).attached = true) (ticket : Half) (flags : Byte) :
    exec (.fetch p ticket flags) s
      = .next ((fetchBody p ticket (flagArg flags) s).1.respond p (fetchBody p ticket (flagArg flags) s).2) :=
  congrArg Host.Outcome.next (command_taken h (standing_session ha) rfl)

/-- What freeing a slot leaves: the slot with its issue number alone, and its owner's list without it (R21). -/
structure State.FreesSlot (s : State) (n : SlotId) (o : Port) (t : State) : Prop where
  rest : t = { s with slots := t.slots, lists := t.lists }
  slot : t.slot n = ⟨(s.slot n).issue, none⟩
  others : ∀ m, m ≠ n → t.slot m = s.slot m
  list : ∀ q, t.list q = if q = o then (s.list q).filter (· != n) else s.list q

theorem freesSlot_freeSlotOf (hr : s.request n = some r) : s.FreesSlot n r.owner (s.freeSlotOf n) := by
  have heq : s.freeSlotOf n = (s.unlist r.owner n).setSlot n ⟨(s.slot n).issue, none⟩ := by simp [State.freeSlotOf, hr]
  refine ⟨?_, ?_, fun m hm => ?_, list_freeSlotOf s hr⟩
  · rw [heq]
    rfl
  · rw [heq]
    simp
  · rw [heq, slot_setSlot, if_neg hm]
    simp

/-- Settles O22: the three states of the slot that the ticket names. -/
theorem cancelBySlotState : Obligations.CancelBySlotState := by
  intro s p ticket n r h ha hticket
  have hr := request_of_ticketSlot hticket
  refine ⟨fun hq => ?_, fun hactive => ?_, fun res hdone => ?_⟩
  · obtain ⟨hrest, hslot, hothers, hlist⟩ := freesSlot_freeSlotOf hr
    refine ⟨s.freeSlotOf n, ?_, hrest, hslot, hothers, by rw [hlist, if_pos rfl], fun o ho => by rw [hlist, if_neg ho]⟩
    rw [exec_cancel h ha]
    simp [cancelBody, hticket, hq, Reply.plain]
  · rw [exec_cancel h ha]
    simp [cancelBody, hticket, hactive, Reply.plain, updRequest_eq hr]
  · rw [exec_cancel h ha]
    simp [cancelBody, hticket, hdone, Reply.plain]

/-- Settles O23: the three states of the slot that the ticket names. -/
theorem fetchBySlotState : Obligations.FetchBySlotState := by
  intro s p ticket flags n r h ha hticket
  have hr := request_of_ticketSlot hticket
  refine ⟨fun hq => ?_, fun hactive => ?_, fun res hdone => ⟨fun hkeep => ?_, fun hkeep => ?_⟩⟩
  · rw [exec_fetch h ha]
    simp [fetchBody, hticket, hq, SlotState.byte]
  · rw [exec_fetch h ha]
    simp [fetchBody, hticket, hactive, SlotState.byte]
  · have hflag : flagArg flags = true := hkeep
    rw [exec_fetch h ha]
    simp [fetchBody, hticket, hdone, hflag, Result.record, countByte]
  · obtain ⟨hrest, hslot, hothers, hlist⟩ := freesSlot_freeSlotOf hr
    refine ⟨s.freeSlotOf n, ?_, hrest, hslot, hothers, hlist⟩
    have hflag : flagArg flags = false := hkeep
    rw [exec_fetch h ha]
    simp [fetchBody, hticket, hdone, hflag, Result.record, countByte]

end Sys2Proof.Machine

/-! ## SUBMIT (O19, O20) -/

namespace Sys2Proof.Machine

open Sys2Proof

variable {s t : State} {n : SlotId} {p : Port} {a : SubmitArgs} {d : Descriptor} {x : Target}

/-! ### The fields of a descriptor (R5, Table 10-4) -/

/-- The bits of a byte under a mask are the field that stands there, moved to its place. -/
theorem and_kindMask (b : Byte) : b &&& 0x03#8 = (b.extractLsb' 0 2).setWidth 8 :=
  BitVec.eq_of_getLsbD_eq fun i hi => by interval_cases i <;> simp

theorem and_classMask (b : Byte) : b &&& 0x0C#8 = (b.extractLsb' 2 2).setWidth 8 <<< 2 :=
  BitVec.eq_of_getLsbD_eq fun i hi => by interval_cases i <;> simp

theorem and_readLenMask (b : Byte) : b &&& 0x3F#8 = (b.extractLsb' 0 6).setWidth 8 :=
  BitVec.eq_of_getLsbD_eq fun i hi => by interval_cases i <;> simp

theorem kindOf_eq (b : Byte) : kindOf b = if b &&& 0x03#8 = 0#8 then .write else if b &&& 0x03#8 = 1#8 then .read
    else if b &&& 0x03#8 = 2#8 then .indexedRead else .probe := by
  rw [kindOf, and_kindMask]
  generalize b.extractLsb' 0 2 = field
  revert field
  decide

theorem classOf_eq (b : Byte) : classOf b = if b &&& 0x0C#8 = 0x00#8 then some .urgent
    else if b &&& 0x0C#8 = 0x04#8 then some .normal else if b &&& 0x0C#8 = 0x08#8 then some .bulk else none := by
  rw [classOf, and_classMask]
  generalize b.extractLsb' 2 2 = field
  revert field
  decide

/-- Two bits take four values. -/
theorem kind_bits (b : Byte) : b &&& 0x03#8 = 0#8 ∨ b &&& 0x03#8 = 1#8 ∨ b &&& 0x03#8 = 2#8 ∨ b &&& 0x03#8 = 3#8 := by
  rw [and_kindMask]
  generalize b.extractLsb' 0 2 = field
  revert field
  decide

theorem class_bits (b : Byte) :
    b &&& 0x0C#8 = 0x00#8 ∨ b &&& 0x0C#8 = 0x04#8 ∨ b &&& 0x0C#8 = 0x08#8 ∨ b &&& 0x0C#8 = 0x0C#8 := by
  rw [and_classMask]
  generalize b.extractLsb' 2 2 = field
  revert field
  decide

theorem readLen_bits (b : Byte) : (b.extractLsb' 0 6).toNat = (b &&& 0x3F#8).toNat := by
  rw [and_readLenMask, BitVec.toNat_setWidth_of_le (by decide)]

theorem indexLength_le (a : SubmitArgs) : a.indexLength ≤ 3 := Nat.le_of_lt_succ (a.lengths.extractLsb' 6 2).isLt

/-- The combinations of Table 1-7, as the bits of the descriptor give them. -/
theorem validCombination_eq (a : SubmitArgs) :
    validCombination (kindOf a.control) a.indexLength a.writeLength (a.readLen.extractLsb' 0 6).toNat (a.control.getLsbD 5)
      = !(if a.control &&& 0x03#8 = 0#8 then
          decide (a.indexLength + a.writeLength = 0 ∨ 32 < a.writeLength ∨ (a.readLen &&& 0x3F#8).toNat ≠ 0)
        else if a.control &&& 0x03#8 = 1#8 then
          decide (a.indexLength ≠ 0 ∨ a.writeLength ≠ 0 ∨ (a.readLen &&& 0x3F#8).toNat = 0
            ∨ 32 < (a.readLen &&& 0x3F#8).toNat) || a.control.getLsbD 5
        else if a.control &&& 0x03#8 = 2#8 then
          decide (a.indexLength = 0 ∨ a.writeLength ≠ 0 ∨ (a.readLen &&& 0x3F#8).toNat = 0
            ∨ 32 < (a.readLen &&& 0x3F#8).toNat) || a.control.getLsbD 5
        else decide (a.indexLength ≠ 0 ∨ a.writeLength ≠ 0 ∨ (a.readLen &&& 0x3F#8).toNat ≠ 0)) := by
  have hindex := indexLength_le a
  rw [readLen_bits, kindOf_eq]
  generalize (a.readLen &&& 0x3F#8).toNat = read
  generalize a.indexLength = index at *
  generalize a.writeLength = write
  have combined {P Q : Prop} [Decidable P] [Decidable Q] (h : P ↔ ¬ Q) (release : Bool) :
      (decide P && !release) = !(decide Q || release) := by
    rw [Bool.not_or, ← decide_not, decide_eq_decide.2 h]
  split
  · exact (decide_eq_decide.2 (by simp only [Config.dataMax]; omega)).trans decide_not
  · split
    · exact combined (by simp only [Config.dataMax]; omega) _
    · split
      · exact combined (by simp only [Config.dataMax]; omega) _
      · exact (decide_eq_decide.2 (by omega)).trans decide_not

theorem badDescriptor_eq (a : SubmitArgs) : badDescriptor a = (noAddress a.addr || a.control &&& 0x0C#8 == 0x0C#8
    || !validCombination (kindOf a.control) a.indexLength a.writeLength (a.readLen.extractLsb' 0 6).toNat
      (a.control.getLsbD 5)) := by
  rw [validCombination_eq, Bool.not_not]
  rfl

theorem classOf_eq_none {b : Byte} : classOf b = none ↔ b &&& 0x0C#8 = 0x0C#8 := by
  rw [classOf, and_classMask]
  generalize b.extractLsb' 2 2 = field
  revert field
  decide

/-- What the argument check of SUBMIT takes (R5). -/
theorem descriptorArg_eq_none : descriptorArg a = none ↔ badDescriptor a = true := by
  rw [badDescriptor_eq, descriptorArg, addressArg_eq]
  cases noAddress a.addr with
  | true => simp
  | false =>
    have hcls := classOf_eq_none (b := a.control)
    cases hc : classOf a.control with
    | none => simp [hcls.1 hc]
    | some cls =>
      have hne : (a.control &&& 0x0C#8 == 0x0C#8) = false := beq_eq_false_iff_ne.2 fun e => by
        rw [hcls.2 e] at hc
        cases hc
      simp only [hne, Bool.false_eq_true, if_false, Option.bind_some, Bool.false_or]
      generalize validCombination _ _ _ _ _ = valid
      cases valid <;> simp

/-- A descriptor is written from the arguments, field by field (R4, R5, Table 10-4). -/
structure Descriptor.WrittenFrom (d : Descriptor) (a : SubmitArgs) : Prop where
  kind : d.kind = kindOf a.control
  target : d.target = a.addr
  index : d.index = a.tail.take a.indexLength
  data : d.data = (a.tail.drop a.indexLength).take a.writeLength
  readLen : d.readLen = (a.readLen &&& 0x3F#8).toNat
  cls : some d.cls = classOf a.control
  notify : d.notify = a.control.getLsbD 4
  autoRelease : d.autoRelease = a.control.getLsbD 5
  underLock : d.underLock = a.control.getLsbD 6
  fence : d.fence = a.control.getLsbD 7

theorem writtenFrom_of_descriptorArg (h : descriptorArg a = some d) : d.WrittenFrom a := by
  obtain ⟨target, htarget, h⟩ := Option.bind_eq_some_iff.1 h
  obtain ⟨cls, hcls, h⟩ := Option.bind_eq_some_iff.1 h
  simp only [Option.ite_none_right_eq_some, Option.some.injEq] at h
  obtain ⟨-, rfl⟩ := h
  rw [addressArg_eq] at htarget
  split at htarget
  · cases htarget
  · cases htarget
    exact ⟨rfl, rfl, rfl, rfl, readLen_bits _, hcls.symm, rfl, rfl, rfl, rfl⟩

theorem Descriptor.WrittenFrom.eq {e : Descriptor} (h : d.WrittenFrom a) (k : e.WrittenFrom a) : d = e := by
  obtain ⟨hkind, htarget, hindex, hdata, hread, hcls, hnotify, hrelease, hlock, hfence⟩ := h
  obtain ⟨kkind, ktarget, kindex, kdata, kread, kcls, knotify, krelease, klock, kfence⟩ := k
  cases d
  cases e
  have hclasses := Option.some.inj (hcls.trans kcls.symm)
  simp_all

theorem exists_descriptorArg (h : badDescriptor a = false) : ∃ d, descriptorArg a = some d := by
  refine Option.ne_none_iff_exists'.1 fun hnone => ?_
  rw [descriptorArg_eq_none.1 hnone] at h
  cases h

/-! ### SUBMIT by the conditions of Table 1-9 -/

section

variable (h : s.takesHeader p = true) (ha : (s.port p).attached = true)
include h ha

theorem exec_submit (hwf : Instr.wellFormed (.submit p a) = true) (hd : descriptorArg a = some d) :
    exec (.submit p a) s = .next ((submitBody p d s).1.respond p (submitBody p d s).2) := by
  have hlength : a.tail.length = a.indexLength + a.writeLength := by simpa [Instr.wellFormed] using hwf
  simp only [exec, execSubmit, if_pos hlength]
  rw [command_taken h (standing_session ha) hd]

theorem exec_submit_refused {c : Code} (hwf : Instr.wellFormed (.submit p a) = true) (hd : descriptorArg a = some d)
    (hc : s.submitRefusal p d = some c) : exec (.submit p a) s = .next (s.respond p ⟨c, []⟩) := by
  rw [exec_submit h ha hwf hd]
  simp [submitBody, hc, Reply.plain]

end

/-- The kind that the two lowest bits name (Table 10-4). -/
theorem kind_of_bits {k : Kind} (b : Byte) (h0 : b &&& 0x03#8 = 0#8 → k = .write) (h1 : b &&& 0x03#8 = 1#8 → k = .read)
    (h2 : b &&& 0x03#8 = 2#8 → k = .indexedRead) (h3 : b &&& 0x03#8 = 3#8 → k = .probe) : k = kindOf b := by
  rw [kindOf_eq]
  rcases kind_bits b with e | e | e | e
  · simp [h0 e, e]
  · simp [h1 e, e]
  · simp [h2 e, e]
  · simp [h3 e, e]

/-- The access that a kind needs, as Table 4-4 has it. -/
theorem permits_iff {k : Kind} : x.permits p k = true ↔ (k = .read ∨ x.writeSet.getLsbD p.index.val = true)
    ∧ (k = .write ∨ k = .probe ∨ x.readSet.getLsbD p.index.val = true) := by
  cases k <;> simp [Target.permits, PortSet.has, and_comm]

/-- Settles O19: the conditions of Table 1-9 one after the other. -/
theorem submitIsRefusedInOrder : Obligations.SubmitIsRefusedInOrder := by
  intro s p a k h ha hwf hgood h0 h1 h2 h3
  obtain ⟨d, hd⟩ := exists_descriptorArg hgood
  have hwritten := writtenFrom_of_descriptorArg hd
  have hkind : d.kind = k := hwritten.kind.trans (kind_of_bits a.control h0 h1 h2 h3).symm
  have refused {c : Code} (hc : s.submitRefusal p d = some c) : exec (.submit p a) s = .next (s.respond p ⟨c, []⟩) :=
    exec_submit_refused h ha hwf hd hc
  refine ⟨fun hf => refused (by simp [State.submitRefusal, hf]), fun hf => ⟨fun hx => refused ?_, fun x hx => ?_⟩⟩
  · simp [State.submitRefusal, hf, hwritten.target, hx]
  dsimp only
  rw [← permits_iff]
  refine ⟨fun haccess => refused ?_, fun haccess hq hk => refused ?_, fun haccess hq htally hshared => refused ?_⟩
  · simp [State.submitRefusal, hf, hwritten.target, hx, hkind, haccess]
  · simp [State.submitRefusal, hf, hwritten.target, hx, hkind, haccess, hq, hk]
  · have hquota : s.quotaPasses p = false := by
      rw [← Bool.not_eq_true, quotaPasses_iff]
      omega
    have hhealth : ¬ (x.health = .quarantined ∧ k ≠ .probe) := fun e => hq.elim (fun k => k e.1) e.2
    simp [State.submitRefusal, hf, hwritten.target, hx, hkind, haccess, hhealth, hquota]

/-- What an allocation leaves (R3, R4, R11). -/
theorem allocate_rest (s : State) (p : Port) (n : SlotId) (d : Descriptor) :
    s.allocate p n d = { s with slots := (s.allocate p n d).slots, lists := (s.allocate p n d).lists } := rfl

theorem slot_allocate (s : State) (p : Port) (n m : SlotId) (d : Descriptor) :
    (s.allocate p n d).slot m = if m = n then ⟨(s.slot n).issue + 1, some (s.newRequest p d)⟩ else s.slot m := by
  rw [State.allocate, ← slot_setSlot]
  rfl

/-- Settles O20: no condition of Table 1-9 holds, and the lowest FREE slot is taken. -/
theorem submitIsAccepted : Obligations.SubmitIsAccepted := by
  intro s p a d x n h ha hwf hgood h0 h1 h2 h3 c0 c1 c2 htarget htail hindex hread hnotify hrelease hlock hfence hf hx
    hwrites hreads hhealth hquota hfree hlowest
  have hlength : a.tail.length = a.indexLength + a.writeLength := by simpa [Instr.wellFormed] using hwf
  have hwritten : d.WrittenFrom a := by
    refine ⟨kind_of_bits a.control h0 h1 h2 h3, htarget, ?_, ?_, hread, ?_, hnotify, hrelease, hlock, hfence⟩
    · rw [htail, ← hindex, List.take_left']
      rfl
    · have hdata : d.data.length = a.writeLength := by
        rw [htail, List.length_append, hindex] at hlength
        omega
      rw [htail, ← hindex, List.drop_left', List.take_of_length_le hdata.le]
      rfl
    · rw [badDescriptor_eq] at hgood
      simp only [Bool.or_eq_false_iff, beq_eq_false_iff_ne] at hgood
      obtain ⟨⟨-, hcls⟩, -⟩ := hgood
      rw [classOf_eq]
      rcases class_bits a.control with e | e | e | e
      · simp [c0 e, e]
      · simp [c1 e, e]
      · simp [c2 e, e]
      · exact absurd e hcls
  obtain ⟨e, he⟩ := exists_descriptorArg hgood
  have hd : descriptorArg a = some d := he.trans (congrArg some ((writtenFrom_of_descriptorArg he).eq hwritten))
  have hnone : s.submitRefusal p d = none := submitRefusal_eq_none.2
    ⟨hf, x, htarget ▸ hx, permits_iff.2 ⟨hwrites, hreads⟩, fun hq => hhealth.resolve_left fun k => k hq,
      quotaPasses_iff.2 hquota⟩
  refine ⟨s.allocate p n d, ticketOf p n ((s.slot n).issue + 1), ?_, ?_, ?_, ?_, fun m hm => ?_, fun r hr => ?_,
    allocate_rest s p n d⟩
  · rw [exec_submit h ha hwf hd]
    simp [submitBody, hnone, freeSlot_eq_some.2 ⟨hfree, hlowest⟩]
  · rw [toNat_ticketOf, slot_allocate, if_pos rfl]
  · rw [slot_allocate, if_pos rfl]
    rfl
  · rw [list_allocate, if_pos rfl]
  · rw [slot_allocate, if_neg hm]
  · rw [list_allocate, if_neg hr]

end Sys2Proof.Machine

/-! ## Completion of a slot (O44) -/

namespace Sys2Proof.Machine

open Sys2Proof

variable {s t : State} {n : SlotId} {p : Port} {r : Request}

/-- A slot that stands in no list of the port is freed in its place. -/
theorem freeSlotOf_of_unlisted (hr : s.request n = some r) (hn : n ∉ s.list r.owner) :
    s.freeSlotOf n = s.setSlot n ⟨(s.slot n).issue, none⟩ := by
  have hfilter : (s.list r.owner).filter (· != n) = s.list r.owner :=
    List.filter_eq_self.2 fun m hm => bne_iff_ne.2 fun e => hn (e ▸ hm)
  have hunlist : s.unlist r.owner n = s := by
    rw [State.unlist, hfilter]
    simp only [State.setList, State.list]
    cases r.owner <;> rfl
  simp [State.freeSlotOf, hr, hunlist]

/-- A ticket is known by its number (Table 10-5). -/
theorem ticketOf_eq {ticket : Half} {i : Byte} (h : ticket.toNat = p.index.val * 16384 + n.val * 256 + i.toNat) :
    ticketOf p n i = ticket := BitVec.eq_of_toNat_eq ((toNat_ticketOf p n i).trans h.symm)

/-- Settles O44: an orphan is freed; any other slot is finished, told of, and freed where AUTO RELEASE is set. -/
theorem completionOfASlot : Obligations.CompletionOfASlot := by
  intro s n r res ticket hr hticket unlisted done told
  refine ⟨fun ho => ?_, fun ho => ?_⟩
  · simp only [State.completeSlot, State.freeSlotOf, hr, if_pos ho]
    rfl
  · have hnotice : s.completedNotice n r res = .completed ticket res.outcome res.bytesDone := by
      rw [State.completedNotice, ticketOf_eq hticket]
    have hdone : done = s.finishSlot n r res := rfl
    have htold : told = if r.desc.notify then (s.finishSlot n r res).offer (s.completedNotice n r res) r.owner
        else s.finishSlot n r res := by
      rw [hnotice]
      rfl
    have hslots : told.slots = done.slots ∧ told.lists = done.lists := by
      simp only [told]
      split <;> simp
    have hreq : told.request n = some { r with state := .done res, abortPending := false } := by
      rw [request_of_slots hslots.1, hdone, State.finishSlot, request_setSlot, if_pos rfl]
    have hlist : n ∉ told.list r.owner := by
      rw [list_of_lists hslots.2, hdone, list_finishSlot, if_pos rfl]
      simp
    have hissue : (told.slot n).issue = (s.slot n).issue := by
      rw [slot_of_slots hslots.1, hdone, State.finishSlot, slot_setSlot, if_pos rfl]
    simp only [State.completeSlot, hr, ho, Bool.false_eq_true, if_false, ← htold]
    split
    · rw [freeSlotOf_of_unlisted hreq hlist, hissue]
    · rfl

end Sys2Proof.Machine

/-! ## The resets (O43) -/

namespace Sys2Proof.Machine

open Sys2Proof

variable {s t : State} {p q : Port}

/-- Whether the blocks stand at their reset values is told by their fields. -/
theorem State.atResetValues.of_fields (h : s.atResetValues)
    (k : t.params = s.params ∧ t.now = s.now ∧ t.slots = s.slots ∧ t.lists = s.lists ∧ t.entries = s.entries
      ∧ t.targets = s.targets ∧ t.pointers = s.pointers ∧ t.engine = s.engine ∧ t.monitor.state = s.monitor.state
      ∧ t.monitor.failed = s.monitor.failed ∧ t.monitor.busFault = s.monitor.busFault ∧ t.notices = s.notices
      ∧ t.ports = s.ports) : t.atResetValues := by
  obtain ⟨hparams, hnow, hslots, hlists, hentries, htargets, hpointers, hengine, hstate, hfailed, hfault, hnotices, hports⟩ := k
  have hentry : t.entry = s.entry := entry_of_entries hentries
  have htarget : t.target = s.target := target_of_targets htargets
  have hnotice : t.noticePort = s.noticePort := noticePort_of_notices hnotices
  rw [State.atResetValues, hparams, hnow, slot_of_slots hslots, list_of_lists hlists, hentry, htarget, hpointers, hengine, hstate,
    hfailed, hfault, hnotice, port_of_ports hports]
  exact h

theorem port_resetBlocks (s : State) (l : Lines) (sel : Port → Bool) (p : Port) :
    (s.resetBlocks l sel).port p = HostPort.atReset (sel p) := by cases p <;> rfl

/-- Every block takes its reset values (Table 9-3). -/
theorem atResetValues_resetBlocks (s : State) (l : Lines) (sel : Port → Bool) : (s.resetBlocks l sel).atResetValues := by
  refine ⟨rfl, rfl, fun n => ?_, fun p => ?_, fun e => ?_, fun i => ?_, rfl, rfl, rfl, rfl, rfl, fun p => ?_, fun p => ?_⟩
  · simp [State.slot, State.resetBlocks, Vector.get]
  · simp [State.list, State.resetBlocks]
  · simp [State.entry, State.resetBlocks, Vector.get]
  · simp [State.target, State.resetBlocks, Vector.get]
  · simp [State.noticePort, State.resetBlocks, NoticePort.fresh, Config.defaultMask]
  · rw [port_resetBlocks]
    exact ⟨rfl, rfl, rfl, rfl, rfl, rfl, rfl, rfl, rfl⟩

theorem atResetValues_readLines (h : s.atResetValues) : s.readLines.atResetValues := by
  simp only [State.readLines]
  split <;> exact h.of_fields (by simp)

/-- The monitor reads the lines as a reset ends (R114, R133). -/
theorem startsReading_readLines (s : State) (l : Lines) (sel : Port → Bool) :
    (s.resetBlocks l sel).readLines.monitor.startsReading l := by
  obtain ⟨fcl, fda⟩ := l
  cases fcl <;> cases fda <;> simp [Monitor.startsReading, State.readLines, State.resetBlocks, Monitor.atReset, bothHigh] <;> rfl

theorem port_readLines (s : State) : s.readLines.port = s.port := by
  simp only [State.readLines]
  split <;> exact port_of_ports (by simp)

/-- A reset that is entered leaves the reset values and the hold (R174, R175). -/
theorem atResetValues_enterReset (s : State) (k : ResetHold) : (s.enterReset k).atResetValues :=
  (atResetValues_resetBlocks s linesHigh fun _ => false).of_fields (by simp [State.enterReset])

/-- A reset that ends leaves the device running from the reset values, with the straps sampled and the cause recorded (R166,
R174, R175, R177). -/
theorem leaveReset_runs (s : State) (straps : BitVec 2) (cause : ResetCause) (lines : Lines) (selected : PortSet) :
    (s.leaveReset straps cause lines selected).hold = ⟨false, false, false⟩
      ∧ (s.leaveReset straps cause lines selected).atResetValues
      ∧ (s.leaveReset straps cause lines selected).monitor.startsReading lines
      ∧ (s.leaveReset straps cause lines selected).supervisor.index.val = straps.toNat
      ∧ (s.leaveReset straps cause lines selected).cause = cause
      ∧ ∀ p, ((s.leaveReset straps cause lines selected).port p).selected = selected.getLsbD p.index.val := by
  refine ⟨rfl, ?_, startsReading_readLines s lines _, (ofBits_eq_iff.1 rfl).symm, rfl, fun p => ?_⟩
  · exact (atResetValues_readLines (atResetValues_resetBlocks s lines selected.has)).of_fields (by simp [State.leaveReset])
  · have hport := congrFun (port_readLines (s.resetBlocks lines selected.has)) p
    rw [port_resetBlocks] at hport
    exact congrArg HostPort.selected hport

/-- The reset of RESET PART keeps the supervisor port and the hold (R176, R177). -/
theorem takeResetPart_runs (s : State) (p : Port) (lines : Lines) :
    (s.takeResetPart p lines).hold = s.hold ∧ (s.takeResetPart p lines).atResetValues
      ∧ (s.takeResetPart p lines).monitor.startsReading lines ∧ (s.takeResetPart p lines).supervisor = s.supervisor
      ∧ (s.takeResetPart p lines).cause = .resetCommand p
      ∧ ∀ q, ((s.takeResetPart p lines).port q).selected = (q != p && (s.port q).selected) := by
  have hheld : ∀ z : State, z.readLines.hold = z.hold ∧ z.readLines.supervisor = z.supervisor := fun z => by
    simp only [State.readLines]
    split <;> simp
  refine ⟨(hheld _).1, ?_, startsReading_readLines s lines _, (hheld _).2, rfl, fun q => ?_⟩
  · exact (atResetValues_readLines (atResetValues_resetBlocks s lines fun q => q != p && (s.port q).selected)).of_fields
      (by simp [State.takeResetPart])
  · have hport := congrFun (port_readLines (s.resetBlocks lines fun q => q != p && (s.port q).selected)) q
    rw [port_resetBlocks] at hport
    exact congrArg HostPort.selected hport

/-- Settles O43, reset by reset. -/
theorem resetsLeaveTheResetValues : Obligations.ResetsLeaveTheResetValues := by
  refine ⟨fun s => ⟨⟨_, rfl, rfl, atResetValues_enterReset s _⟩, _, rfl, rfl, atResetValues_enterReset s _⟩,
    fun s straps lines selected => ⟨fun hsup hnrst => ?_, fun hsup hnrst => ⟨?_, ?_⟩, fun hsup hnrst => ?_⟩,
    fun s p h hs ha => ?_, fun s p lines hr hframe hpending => ⟨?_, ?_⟩⟩
  · refine ⟨s.leaveReset straps .powerOn lines selected, ?_, leaveReset_runs s straps .powerOn lines selected⟩
    simp [exec, execPowerOnResetEnd, hsup, hnrst]
  · simp [exec, execPowerOnResetEnd, hsup, hnrst]
  · simp [exec, execNrstRelease, hsup, hnrst]
  · refine ⟨s.leaveReset straps _ lines selected, ?_, leaveReset_runs s straps _ lines selected⟩
    simp [exec, execNrstRelease, hsup, hnrst]
  · exact congrArg Host.Outcome.next (command_taken h (standing_supervisor hs ha) rfl)
  · simp [exec, execFrameEnd, execResetPartTaken, hframe, hpending]
  · refine ⟨s.takeResetPart p lines, ?_, takeResetPart_runs s p lines⟩
    simp [exec, execResetPartTaken, State.event, hr, hframe, hpending]

end Sys2Proof.Machine

/-! ## The end of a session (O16, O17) -/

namespace Sys2Proof.Machine

open Sys2Proof

variable {s t : State} {n : SlotId} {p q : Port} {r : Request}

/-! ### What a port holds, through the re-evaluation -/

theorem holdsNothing_of_fields (h : t.slots = s.slots ∧ t.targets = s.targets ∧ t.entries = s.entries ∧ t.notices = s.notices) :
    t.holdsNothing p ↔ s.holdsNothing p := by
  obtain ⟨hslots, htargets, hentries, hnotices⟩ := h
  rw [holdsNothing_iff, holdsNothing_iff, ownsOrphansOnly_of_slots hslots, locksNothing_of_targets htargets,
    sponsorsNothing_of_entries hentries, noticePort_of_notices hnotices]

/-- A completion leaves a port its orphans alone (R23). -/
theorem State.ownsOrphansOnly.completeSlot (h : s.ownsOrphansOnly p) (n : SlotId) (x : Result) :
    (s.completeSlot n x).ownsOrphansOnly p := by
  intro m k hk hown
  rw [request_completeSlot] at hk
  split at hk
  · obtain ⟨r, hr, hc⟩ := Option.bind_eq_some_iff.1 hk
    simp only [Request.completed, Option.ite_none_left_eq_some, Option.some.injEq] at hc
    obtain ⟨hkept, rfl⟩ := hc
    obtain ⟨-, horphan⟩ := h n r hr hown
    simp [horphan] at hkept
  · exact h m k hk hown

theorem noticePort_offer_other (h : p ≠ q) (s : State) (m : Notice) : (s.offer m q).noticePort p = s.noticePort p := by
  simp only [State.offer]
  split
  · rw [noticePort_setNoticePort, if_neg h]
  · rfl

/-- The completion of an orphan, or of another port's slot, offers a port nothing (R13, R23). -/
theorem noticePort_completeSlot (h : s.ownsOrphansOnly p) (n : SlotId) (x : Result) :
    (s.completeSlot n x).noticePort p = s.noticePort p := by
  cases hr : s.request n with
  | none => simp [State.completeSlot, hr]
  | some r =>
    cases ho : r.orphan with
    | true =>
      have heq : s.completeSlot n x = s.freeSlotOf n := by simp [State.completeSlot, hr, ho]
      rw [heq]
      exact congrFun (noticePort_of_notices (by simp)) p
    | false =>
      have hown : p ≠ r.owner := fun e => by
        obtain ⟨-, horphan⟩ := h n r hr e.symm
        rw [ho] at horphan
        cases horphan
      have hfinish : (s.finishSlot n r x).noticePort p = s.noticePort p := congrFun (noticePort_of_notices (by simp)) p
      have htold : (if r.desc.notify then (s.finishSlot n r x).offer (s.completedNotice n r x) r.owner
          else s.finishSlot n r x).noticePort p = s.noticePort p := by
        split
        · rw [noticePort_offer_other hown, hfinish]
        · exact hfinish
      simp only [State.completeSlot, hr, ho, Bool.false_eq_true, if_false]
      split
      · exact (congrFun (noticePort_of_notices (by simp)) p).trans htold
      · exact htold

/-- The NOT LOCKED completions are no concern of a port that owns orphans alone (R23, R36). -/
theorem notLockedAll_spares (h : s.ownsOrphansOnly p) :
    s.notLockedAll.ownsOrphansOnly p ∧ s.notLockedAll.noticePort p = s.noticePort p := by
  refine List.foldlRecOn (motive := fun a : State => a.ownsOrphansOnly p ∧ a.noticePort p = s.noticePort p) _ _ ⟨h, rfl⟩
    fun a ha q _ => ?_
  refine List.foldlRecOn (motive := fun b : State => b.ownsOrphansOnly p ∧ b.noticePort p = s.noticePort p) _ _ ha
    fun b hb n _ => ?_
  obtain ⟨howns, hnotices⟩ := hb
  split
  · exact ⟨howns.completeSlot n _, (noticePort_completeSlot howns n _).trans hnotices⟩
  · exact ⟨howns, hnotices⟩

theorem State.ownsOrphansOnly.settle (h : s.ownsOrphansOnly p) : s.settle.ownsOrphansOnly p := by
  intro n k hk hown
  obtain ⟨r, hr, hfollows⟩ := (SlotsFollow.settle Result.any_without (.refl _ s)).request n k hk
  have horphan := h n r hr (hfollows.owner ▸ hown)
  have hstands : s.settle.request n = s.request n := request_settle_of_not_queued s fun r' hr' e => by
    rw [hr, Option.some.injEq] at hr'
    rw [← hr', horphan.1] at e
    cases e
  rw [hstands, hr, Option.some.injEq] at hk
  exact hk ▸ horphan

theorem State.locksNothing.settle (h : s.locksNothing p) : s.settle.locksNothing p := by
  intro i y hy
  cases hx : s.target i with
  | none =>
    have hdeclared : (s.settle.target i).map Target.declared = (s.target i).map Target.declared :=
      congrFun (settle_keeps s).2.1 i
    rw [hx, hy] at hdeclared
    cases hdeclared
  | some x =>
    obtain ⟨y', hy', hlock, hwaiters⟩ := target_settle hx
    rw [hy', Option.some.injEq] at hy
    subst hy
    obtain ⟨hl, hw⟩ := h i x hx
    exact ⟨hlock ▸ hl, by rw [Target.awaits, hwaiters]; exact hw⟩

theorem State.sponsorsNothing.settle (h : s.sponsorsNothing p) : s.settle.sponsorsNothing p := by
  intro e v hv
  cases hu : s.entryUse e with
  | none =>
    have hsponsored := congrArg Prod.snd (congrFun (settle_keeps s).2.2.1 e)
    change (s.settle.entryUse e).map _ = (s.entryUse e).map _ at hsponsored
    rw [hu, hv] at hsponsored
    cases hsponsored
  | some u =>
    obtain ⟨v', hv', -, hsponsors, -⟩ := entryUse_settle hu
    rw [hv', Option.some.injEq] at hv
    subst hv
    rw [hsponsors]
    exact h e u hu

theorem State.holdsNothing.settle (h : s.holdsNothing p) : s.settle.holdsNothing p := by
  obtain ⟨hslots, hlocks, hsponsors, hnotices⟩ := holdsNothing_iff.1 h
  refine holdsNothing_iff.2 ⟨hslots.settle, hlocks.settle, hsponsors.settle, ?_⟩
  rw [← hnotices, ← (notLockedAll_spares hslots).2]
  exact congrFun (noticePort_of_notices (by simp [State.settle])) p

/-! ### The end of a session gives up every holding (R22, R72, R106, R145) -/

theorem holdsNothing_endSession (h : s.lockLaw) (p : Port) : (s.endSession p).holdsNothing p := by
  obtain ⟨given, hgiven⟩ : ∃ z, z = ((s.endSlots p).endLocks p).endSponsorships p := ⟨_, rfl⟩
  have hend : s.endSession p = (given.setNoticePort p NoticePort.fresh).updPort p fun h =>
      { h with attached := false, buffer := none } := by
    rw [hgiven]
    rfl
  have hslots : given.ownsOrphansOnly p := hgiven ▸ (ownsOrphansOnly_of_slots (s := (s.endSlots p).endLocks p) (by simp)).2
    (ownsOrphansOnly_endLocks (ownsOrphansOnly_endSlots s p) p)
  have hlocks : given.locksNothing p := hgiven ▸ (locksNothing_of_targets (s := (s.endSlots p).endLocks p) (by simp)).2
    (locksNothing_endLocks ((lockLaw_of_targets (s := s) (by simp)).2 h) p)
  have hsponsors : given.sponsorsNothing p := hgiven ▸ sponsorsNothing_endSponsorships _ p
  refine holdsNothing_iff.2 ⟨(ownsOrphansOnly_of_slots (by simp [hend])).2 hslots,
    (locksNothing_of_targets (by simp [hend])).2 hlocks, (sponsorsNothing_of_entries (by simp [hend])).2 hsponsors, ?_⟩
  have hfresh : (given.setNoticePort p NoticePort.fresh).noticePort p = NoticePort.fresh := by simp
  rw [hend, ← hfresh]
  exact congrFun (noticePort_of_notices (by simp)) p

theorem holdsNothing_respond {k : Reply} (h : s.holdsNothing q) : (s.respond p k).holdsNothing q :=
  (holdsNothing_of_fields (by simp)).2 h

theorem port_settle (s : State) (q : Port) : s.settle.port q = s.port q := congrFun (port_of_ports (by simp)) q

/-- Settles O16: what the end of a session takes, the re-evaluation and the answer do not give back. -/
theorem sessionEndGivesUpEveryHolding : Obligations.SessionEndGivesUpEveryHolding := by
  intro s p hlaw h ha
  have ended (q : Port) : (s.endSession q).holdsNothing q := holdsNothing_endSession hlaw q
  refine ⟨⟨_, exec_detach h ha, holdsNothing_respond (ended p).settle, ?_, ?_, ?_⟩, fun hadm => ?_, fun q hs hne hq => ?_⟩
  · simp [port_respond, port_settle, port_endSession]
  · simp [port_respond, port_settle, port_endSession]
  · simp [port_respond, Reply.plain]
  · have hopened : ((s.endSession p).openSession p).holdsNothing p := (holdsNothing_of_fields (by simp)).2 (ended p)
    refine ⟨_, nextGeneration (s.port p).generation, exec_attach_again h ha hadm, holdsNothing_respond hopened.settle, ?_, ?_,
      fun hwrap => if_pos hwrap, fun hnext => if_neg hnext, ?_⟩
    · simp [port_respond, port_settle, State.openSession]
    · simp [port_respond, port_settle, State.openSession, port_endSession]
    · simp [port_respond]
  · refine ⟨_, exec_evictPort h ha hs hq hne, holdsNothing_respond (ended q).settle, ?_, ?_⟩
    · simp [port_respond, port_settle, port_endSession, hne]
    · simp [port_respond, Reply.plain]

/-! ### Every slot is seen to (R22) -/

/-- QUEUED and DONE slots of the port are freed, its ACTIVE one becomes an orphan, and the others stand. -/
theorem request_endSlots (hr : s.request n = some r) (p : Port) : (s.endSlots p).request n
    = if r.owner = p then (if r.state = .active then some { r with orphan := true } else none) else some r := by
  obtain ⟨a, -, ha, hfold⟩ := foldl_finRange_at (get := State.request) (f := fun z n => z.endSlot p n) (P := fun _ => True)
    (fun _ _ _ => trivial) (fun _ _ _ h => request_endSlot_other h p) trivial (s := s) n
  rw [hr] at ha
  rw [State.endSlots, hfold]
  simp only [State.endSlot, ha, beq_iff_eq]
  split
  · cases hs : r.state <;> simp [ha, hs]
  · exact ha

/-- The releases of a session end leave every slot that is not QUEUED (R101). -/
theorem request_endLocks_of_not_queued (h : ∀ r, s.request n = some r → r.state ≠ .queued) (p : Port) :
    (s.endLocks p).request n = s.request n := by
  refine List.foldlRecOn (motive := fun a : State => a.request n = s.request n) _ _ rfl fun a ha i _ => ?_
  simp only [State.endLock]
  split
  · exact ha
  · next x hx =>
    split
    · rw [request_release hx, if_neg, ha]
      intro hmem
      obtain ⟨-, r, hr, hq, -⟩ := mem_lostWith.1 hmem
      exact h r (ha ▸ hr) hq
    · exact (congrFun (request_of_slots (by simp)) n).trans ha

/-- What a slot of a port, or one of another port that is not QUEUED, is after the port's session and the re-evaluation. -/
theorem request_endSession (hr : s.request n = some r) (p : Port) (h : r.owner = p ∨ r.state ≠ .queued)
    (hz : t.slots = (s.endSession p).slots) : t.settle.request n
    = if r.owner = p then (if r.state = .active then some { r with orphan := true } else none) else some r := by
  have hslots : ∀ k, (s.endSlots p).request n = some k → k.state ≠ .queued := by
    intro k hk
    rw [request_endSlots hr] at hk
    split at hk
    · split at hk
      · next hactive =>
        cases hk
        simp [hactive]
      · cases hk
    · next hown =>
      cases hk
      exact h.resolve_left hown
  have hrequest : t.request n = (s.endSlots p).request n := by
    rw [request_of_slots hz, ← request_endLocks_of_not_queued hslots p]
    exact congrFun (request_of_slots (by simp [State.endSession])) n
  rw [request_settle_of_not_queued t (fun k hk => hslots k (hrequest ▸ hk)), hrequest, request_endSlots hr]

/-- Another port than the supervisor can be named (R172). -/
theorem evictArg_portNumber (h : q ≠ p) : evictArg p (portNumber q) = some q := by
  have hname : (portNumber q).toNat < 4 ∧ Port.ofBits ((portNumber q).extractLsb' 0 2) = q := by cases q <;> decide
  rw [evictArg, hname.2, if_pos ⟨hname.1, h⟩]

/-- Settles O17: by owner and state of the slot. -/
theorem sessionEndSeesToEverySlot : Obligations.SessionEndSeesToEverySlot := by
  refine ⟨fun s p n r h ha hr => ?_, fun s p h hd => ?_, fun s p q h hs ha hne hd => ?_⟩
  · intro seen
    have hseen {q : Port} {z : State} {k : Reply} (hz : z.slots = (s.endSession q).slots) : seen q (z.settle.respond p k) := by
      have hresponse : (z.settle.respond p k).request n = z.settle.request n := congrFun (request_of_slots (by simp)) n
      refine ⟨fun hown hs => ?_, fun hown hs => ?_, fun hown hs => ?_⟩
      · rw [hresponse, request_endSession hr q (.inl hown) hz, if_pos hown, if_neg hs]
      · rw [hresponse, request_endSession hr q (.inl hown) hz, if_pos hown, if_pos hs]
      · rw [hresponse, request_endSession hr q (.inr hs) hz, if_neg hown]
    exact ⟨⟨_, exec_detach h ha, hseen rfl⟩, fun hadm => ⟨_, exec_attach_again h ha hadm, hseen (by simp)⟩,
      fun q hs hne hq => ⟨_, exec_evictPort h ha hs hq hne, hseen rfl⟩⟩
  · change Host.Outcome.next _ = _
    rw [command_taken h (standing_any) rfl]
    simp [hd, Reply.plain]
  · have harg : evictArg s.supervisor (BitVec.ofNat 8 q.index.val) = some q := hs ▸ evictArg_portNumber hne
    change Host.Outcome.next _ = _
    rw [command_taken h (standing_supervisor hs ha) harg]
    simp [hd, Reply.plain]

end Sys2Proof.Machine

/-! ## Selections (O47) -/

namespace Sys2Proof.Machine

open Sys2Proof

variable {s t : State} {x : Participant} {c : WorkClass} {w : Work}

/-! ### The choice (R29, R43) -/

theorem offeredClass_eq_some {y : Participant} :
    s.offeredClass y = some c ↔ ∃ v, s.candidate y = some v ∧ s.classOfWork v = some c := Option.bind_eq_some_iff

/-- The first element of a list with a property, told by what stands before it. -/
theorem find?_of_takeWhile {α : Type} [DecidableEq α] {a : α} {f : α → Bool} {l : List α} (ha : a ∈ l) (hf : f a = true)
    (hbefore : ∀ b ∈ l.takeWhile (· != a), f b = false) : l.find? f = some a := by
  induction l with
  | nil => cases ha
  | cons b l ih =>
    by_cases hb : b = a
    · rw [List.find?_cons, hb, hf]
    · have htake : (b :: l).takeWhile (· != a) = b :: l.takeWhile (· != a) :=
        List.takeWhile_cons_of_pos (bne_iff_ne.2 hb)
      rw [htake] at hbefore
      rw [List.find?_cons, hbefore b List.mem_cons_self]
      exact ih ((List.mem_cons.1 ha).resolve_left (Ne.symm hb)) fun d hd => hbefore d (List.mem_cons_of_mem b hd)

/-- Every participant has its turn (R43). -/
theorem mem_following (x y : Participant) : x ∈ y.following := by
  revert x y
  rintro ((_ | _ | _ | _) | _) ((_ | _ | _ | _) | _) <;> decide

/-- A selection is made where nothing prevents it: the engine rests, the bus is free, and work is offered (R29). -/
theorem select_of_choice (he : s.engine = .idle) (hm : s.monitor.state = .free) (hc : s.choice = some (c, x))
    (hw : s.candidate x = some w) : s.select = { s with pointers := s.pointers.set c x }.startWork w := by
  simp [State.select, State.canSelect, he, hm, hc, hw]

/-- With nothing offered there is nothing to select. -/
theorem select_of_no_offer (h : s.engine ≠ .idle ∨ s.monitor.state ≠ .free ∨ ∀ y, s.candidate y = none) : s.select = s := by
  rcases select_cases s with hs | ⟨ps, y, v, he, hm, hv, -⟩
  · exact hs
  · rcases h with h | h | h
    · exact absurd he h
    · exact absurd hm h
    · rw [h y] at hv
      cases hv

/-- The choice is the highest class offered, at it the first participant after the class's pointer (R43). -/
theorem choice_of_rotation (hx : s.offeredClass x = some c) (hhighest : ∀ y d, s.offeredClass y = some d → c.code ≤ d.code)
    (hfirst : ∀ y ∈ (s.pointers.get c).following.takeWhile (· != x), s.offeredClass y ≠ some c) :
    s.choice = some (c, x) := by
  have hchoice : s.choiceAt c = some x :=
    find?_of_takeWhile (mem_following x _) (by simp [hx]) fun y hy => by simpa using hfirst y hy
  have hnone (d : WorkClass) (hd : d.code < c.code) : s.choiceAt d = none :=
    choiceAt_eq_none.2 fun y hy => Nat.not_lt.2 (hhighest y d hy) hd
  cases c with
  | urgent => simp [State.choice, hchoice]
  | normal => simp [State.choice, hchoice, hnone .urgent (by decide)]
  | bulk => simp [State.choice, hchoice, hnone .urgent (by decide), hnone .normal (by decide)]

/-! ### The start (R12, R59, R89, R111) -/

theorem Rate.khz_injective {a b : Rate} (h : a.khz = b.khz) : a = b := by
  cases a <;> cases b <;> simp [Rate.khz] at h ⊢

theorem Rate.khz_lower (a b : Rate) : (a.lower b).khz = min a.khz b.khz := by
  simp only [Rate.lower]
  split <;> omega

/-- The transfer on a declared target, at the lower of the two rates (R111, R120). -/
theorem newTransfer_of_target {y : Target} {rate : Rate} {a : Byte} (h : s.targetAt a = some y)
    (hrate : rate.khz = min s.params.busRate.khz y.speed.khz) (w : Work) :
    s.newTransfer w a = ⟨w, rate, y.stretchLimit, 0, none, false⟩ := by
  have hlower : s.params.busRate.lower y.speed = rate := Rate.khz_injective ((Rate.khz_lower _ _).trans hrate.symm)
  simp [State.newTransfer, h, hlower]

/-- Settles O47: the choice by class and rotation, and the start by the kind of work. -/
theorem selectionAndStart : Obligations.SelectionAndStart := by
  refine ⟨fun s h => ?_, fun s c x w he hm hw hc hhighest hfirst => ?_, fun s x rate hrate => ?_⟩
  · refine select_of_no_offer (h.imp_right (Or.imp_right fun hoffers y => ?_))
    cases hv : s.candidate y with
    | none => rfl
    | some v =>
      obtain ⟨d, hd⟩ := offeredClass_isSome hv
      obtain ⟨v', hv', hclass⟩ := offeredClass_eq_some.1 hd
      rw [hoffers y v' hv'] at hclass
      cases hclass
  · refine select_of_choice he hm (choice_of_rotation (offeredClass_eq_some.2 ⟨w, hw, hc⟩) (fun y d hy => ?_) fun y hy h => ?_) hw
    · obtain ⟨v, hv, hd⟩ := offeredClass_eq_some.1 hy
      exact hhighest y v d hv hd
    · obtain ⟨v, hv, hd⟩ := offeredClass_eq_some.1 h
      exact hfirst y v hy hv hd
  · intro engine
    refine ⟨fun n r hr hx => ?_, fun e u i k m hu hx hm => ?_, fun e u i k m hu hx hm hdue => ?_, fun t m ht hx => ?_⟩
    · simp only [State.startWork, hr, updRequest_eq hr, newTransfer_of_target hx hrate]
      rfl
    · have hfirst : (m.started && u.dueTimer.isSome) = false := by
        rcases hm with h | h <;> simp [h]
      simp only [State.startWork, State.startPoll, updEntry_eq hu, hfirst, newTransfer_of_target hx hrate]
      rfl
    · have hagain : (m.started && u.dueTimer.isSome) = true := by
        simp [hm, Option.isSome_iff_ne_none, hdue]
      simp only [State.startWork, State.startPoll, updEntry_eq hu, hagain, newTransfer_of_target hx hrate]
      rfl
    · simp only [State.startWork, updTarget_eq ht, newTransfer_of_target hx hrate]
      rfl

end Sys2Proof.Machine

/-! ## The argument ranges (O11)

Each command's argument check answers none exactly where its arguments lie outside their ranges, and no body of a command
answers BAD ARGUMENT. -/

namespace Sys2Proof.Machine

open Sys2Proof

variable {s : State} {p : Port} {c : Instr}

/-! ### Each argument check answers none exactly outside the ranges (R154 check 5) -/

/-- An argument check tells a range when arguments in range are taken, and only they. -/
theorem none_iff_bad {α : Type} {args : Option α} {bad : Bool} (hgood : bad = false → ∃ a, args = some a)
    (htaken : ∀ a, args = some a → bad = false) : args = none ↔ bad = true := by
  cases hb : bad with
  | true => simpa [hb, Option.eq_none_iff_forall_ne_some] using htaken
  | false =>
    obtain ⟨a, ha⟩ := hgood hb
    simp [ha]

theorem addressArg_eq_none {b : Byte} : addressArg b = none ↔ noAddress b = true := by
  rw [addressArg_eq]
  split <;> simp_all

theorem noAddress_of_addressArg {a b : Byte} (h : addressArg b = some a) : noAddress b = false := by
  rw [← Bool.not_eq_true, ← addressArg_eq_none, h]
  exact nofun

theorem entryArg_eq_none {b : Byte} : entryArg b = none ↔ decide (23 < b.toNat) = true := by
  rw [entryArg, decide_eq_true_iff, dite_eq_right_iff]
  exact ⟨fun h => Nat.lt_of_not_le fun hle => Option.some_ne_none _ (h (Nat.lt_succ_of_le hle)),
    fun h hlt => absurd hlt (by omega)⟩

theorem badKey_of_keyArg {k : KeyArgs} {key : Key} (h : keyArg k = some key) : badKey k = false := by
  obtain ⟨a, haddr, hlengths⟩ := Option.bind_eq_some_iff.1 h
  obtain ⟨hrange, -⟩ := Option.ite_none_right_eq_some.1 hlengths
  simp only [Config.mirrorValueMax] at hrange
  simp only [badKey, noAddress_of_addressArg haddr, Bool.false_or, decide_eq_false_iff_not]
  omega

theorem keyArg_eq_none {k : KeyArgs} : keyArg k = none ↔ badKey k = true :=
  none_iff_bad (fun h => ⟨_, keyArg_of_good h⟩) fun _ => badKey_of_keyArg

theorem defineArg_eq_none {ka : KeyArgs} {period mask : Half} {flags : Byte} :
    defineArg ka period flags mask = none ↔ badArguments s (.mirrorDefine p ka period flags mask) = true := by
  refine none_iff_bad (fun h => ⟨_, defineArg_of_good h⟩) fun a h => ?_
  obtain ⟨key, hkey, hperiod⟩ := Option.bind_eq_some_iff.1 h
  obtain ⟨hrange, -⟩ := Option.ite_none_right_eq_some.1 hperiod
  simp only [Config.periodMin, Config.periodMax] at hrange
  simp only [badArguments, badKey_of_keyArg hkey, Bool.false_or, decide_eq_false_iff_not]
  omega

theorem lockArg_eq_none {a flags : Byte} {lease : Half} :
    lockArg a lease flags = none ↔ badArguments s (.lock p a lease flags) = true := by
  have hlease : lease.toNat = 0 ↔ lease = 0#16 := by bv_omega
  simp only [lockArg, addressArg_eq, badArguments, hlease]
  cases noAddress a <;> simp

theorem maskArg_eq_none {m : Byte} : maskArg m = none ↔ decide (0x7F#8 < m) = true := by
  have hbit : m.getLsbD 7 = decide (0x7F#8 < m) := by
    change m.msb = _
    rw [BitVec.msb_eq_decide]
    exact decide_eq_decide.2 (by bv_omega)
  rw [maskArg, hbit]
  split <;> simp_all

theorem evictArg_eq_none {b : Byte} :
    evictArg p b = none ↔ (decide (3 < b.toNat) || portNumber p == b) = true := by
  by_cases hout : 3 < b.toNat
  · simp [evictArg, hout, Nat.not_lt.2 (Nat.succ_le_of_lt hout)]
  · have hcode : b = 0#8 ∨ b = 1#8 ∨ b = 2#8 ∨ b = 3#8 := by bv_omega
    rcases hcode with rfl | rfl | rfl | rfl <;> cases p <;> decide

theorem speedArg_toNat {b : Byte} {r : Rate} (h : speedArg b = some r) : b.toNat ≤ 2 := by
  simp only [speedArg] at h
  split at h
  · next hb => simp [hb]
  · split at h
    · next hb => simp [hb]
    · obtain ⟨hb, -⟩ := Option.ite_none_right_eq_some.1 h
      simp [hb]

theorem le_of_orDefault_le {v n bound : Nat} (h : orDefault v n ≤ bound) : v ≤ bound := by
  rw [orDefault] at h
  split at h <;> omega

theorem le_of_le_orDefault {v n bound : Nat} (h : bound ≤ orDefault v n) (hv : v ≠ 0) : bound ≤ v := by
  rwa [orDefault, if_neg hv] at h

theorem badDeclaration_of_declareArg {d : DeclareArgs} {y : Declaration} (h : declareArg d = some y) :
    badDeclaration d = false := by
  obtain ⟨a, haddr, hrest⟩ := Option.bind_eq_some_iff.1 h
  obtain ⟨r, hspeed, hfields⟩ := Option.bind_eq_some_iff.1 hrest
  obtain ⟨⟨-, hstretch, -, hthreshold, hleast, hmost⟩, -⟩ := Option.ite_none_right_eq_some.1 hfields
  have hcode : d.speed.toNat ≤ 2 := speedArg_toNat hspeed
  have hstretch := le_of_orDefault_le hstretch
  have hthreshold := le_of_orDefault_le hthreshold
  have hmost := le_of_orDefault_le hmost
  have hleast : d.probeInterval ≠ 0#16 → 10 ≤ d.probeInterval.toNat :=
    fun hv => le_of_le_orDefault hleast fun hzero => hv (BitVec.eq_of_toNat_eq hzero)
  simp only [badDeclaration, noAddress_of_addressArg haddr, Bool.false_or, decide_eq_false_iff_not]
  rintro (hcode' | hstretch' | hthreshold' | ⟨hv, hinterval⟩)
  · omega
  · omega
  · omega
  · have hten := hleast hv
    omega

theorem declareArg_eq_none {d : DeclareArgs} : declareArg d = none ↔ badDeclaration d = true := by
  refine none_iff_bad (fun h => ?_) fun _ => badDeclaration_of_declareArg
  obtain ⟨x, hx⟩ := exists_declaredAs d
  exact ⟨_, declareArg_of_declaredAs h hx⟩

/-! ### The parameters (R169, R171) -/

theorem paramArg_eq_none_iff {b : Byte} : paramArg b = none ↔ decide (b.toNat < 1 ∨ 10 < b.toNat) = true := by
  refine ⟨fun h => ?_, fun h => paramArg_eq_none ?_⟩
  · rw [decide_eq_true_iff]
    by_contra hin
    obtain ⟨hleast, hmost⟩ : 1 ≤ b.toNat ∧ b.toNat ≤ 10 := by omega
    rw [paramArg] at h
    generalize b.toNat = code at *
    interval_cases code <;> cases h
  · have hout := of_decide_eq_true h
    omega

theorem ident_of_paramArg {b : Byte} {k : Param} (h : paramArg b = some k) : b = k.ident := by
  simp only [paramArg] at h
  split at h
  case h_11 => cases h
  all_goals
    next hcode =>
      obtain rfl := Option.some.inj h
      exact BitVec.eq_of_toNat_eq hcode

theorem rate_ofKhz_eq_none {n : Nat} : Rate.ofKhz n = none ↔ n ≠ 100 ∧ n ≠ 400 ∧ n ≠ 1000 := by
  simp only [Rate.ofKhz]
  split
  · simp [*]
  · split
    · simp [*]
    · split <;> simp [*]

theorem workClass_ofCode_eq_none {n : Nat} : WorkClass.ofCode n = none ↔ 2 < n := by
  match n with
  | 0 | 1 | 2 => decide
  | n + 3 => simp [WorkClass.ofCode]

/-- A write that is made in a range alone is not made outside it. -/
theorem ite_eq_none_iff_bad {α : Type} {range bad : Prop} [Decidable range] [Decidable bad] {a : α}
    (h : ¬ range ↔ bad) : (if range then some a else none) = none ↔ decide bad = true := by
  simp [← h]

/-- A parameter is not written exactly where its value lies outside its range (Table 9-1). -/
theorem write_eq_none {ps : Params} {k : Param} {v : Half} :
    ps.write p k v = none ↔ badParameter p k.ident v = true := by
  cases k with
  | busRate => exact Option.map_eq_none_iff.trans (rate_ofKhz_eq_none.trans decide_eq_true_iff.symm)
  | maintenanceClass => exact Option.map_eq_none_iff.trans (workClass_ofCode_eq_none.trans decide_eq_true_iff.symm)
  | admitted =>
    change (if PortSet.has (v.setWidth 4) p then _ else none) = none ↔ (!v.getLsbD p.index.val) = true
    rw [has_portSet]
    cases v.getLsbD p.index.val <;> simp
  | addressRetries | lossLimit | agingLimit | staleMultiple | hangLimit | faultRetry | maxLease =>
    exact ite_eq_none_iff_bad (by omega)

theorem setParamArg_eq_none {ps : Params} {ident : Byte} {v : Half} :
    setParamArg ps p ident v = none ↔ badParameter p ident v = true := by
  cases hk : paramArg ident with
  | none =>
    have hout : ident.toNat < 1 ∨ 10 < ident.toNat := of_decide_eq_true (paramArg_eq_none_iff.1 hk)
    have hbad : badParameter p ident v = true := by
      simp only [badParameter]
      split
      case h_11 => rfl
      all_goals omega
    simp [setParamArg, hk, hbad]
  | some k =>
    rw [setParamArg, hk, Option.bind_some, Option.map_eq_none_iff, ident_of_paramArg hk, write_eq_none]

/-! ### No command's body answers BAD ARGUMENT -/

theorem attachBody_code : (attachBody p s).2.code ≠ .badArgument := by
  simp only [attachBody]
  split <;> exact nofun

theorem submitRefusal_code {d : Descriptor} {code : Code} (h : s.submitRefusal p d = some code) :
    code ≠ .badArgument := by
  rintro rfl
  simp only [State.submitRefusal] at h
  (repeat' split at h) <;> simp at h

theorem submitBody_code {d : Descriptor} : (submitBody p d s).2.code ≠ .badArgument := by
  simp only [submitBody]
  split
  · next h => exact submitRefusal_code h
  · split <;> exact nofun

theorem cancelBody_code {k : Half} : (cancelBody p k s).2.code ≠ .badArgument := by
  simp only [cancelBody]
  split
  · exact nofun
  · split <;> exact nofun

theorem fetchBody_code {k : Half} {keep : Bool} : (fetchBody p k keep s).2.code ≠ .badArgument := by
  simp only [fetchBody]
  split
  · exact nofun
  · split <;> exact nofun

theorem readNoticeBody_code : (readNoticeBody p s).2.code ≠ .badArgument := by
  simp only [readNoticeBody]
  split <;> exact nofun

theorem joinOrReport_code {t : TargetId} {x : Target} {holder : Port} {n : Nat} {w : Bool} :
    (s.joinOrReport p t x holder n w).2.code ≠ .badArgument := by
  simp only [State.joinOrReport]
  split <;> exact nofun

theorem lockBody_code {a : Byte} {n : Nat} {w : Bool} : (lockBody p a n w s).2.code ≠ .badArgument := by
  simp only [lockBody]
  split
  · exact nofun
  · split
    · exact nofun
    · split
      · exact nofun
      · split
        · exact nofun
        · split
          · exact nofun
          · exact joinOrReport_code

theorem renewBody_code {a : Byte} : (renewBody p a s).2.code ≠ .badArgument := by
  simp only [renewBody]
  (repeat' split) <;> exact nofun

theorem unlockBody_code {a : Byte} : (unlockBody p a s).2.code ≠ .badArgument := by
  simp only [unlockBody]
  (repeat' split) <;> exact nofun

theorem forceUnlockBody_code {a : Byte} : (forceUnlockBody a s).2.code ≠ .badArgument := by
  simp only [forceUnlockBody]
  (repeat' split) <;> exact nofun

theorem mirrorDefineBody_code {k : Key} {x : Sponsor} : (mirrorDefineBody p k x s).2.code ≠ .badArgument := by
  simp only [mirrorDefineBody]
  (repeat' split) <;> exact nofun

theorem mirrorDropBody_code {e : EntryId} : (mirrorDropBody p e s).2.code ≠ .badArgument := by
  simp only [mirrorDropBody]
  (repeat' split) <;> exact nofun

theorem mirrorFindReply_code {k : Key} : (s.mirrorFindReply p k).code ≠ .badArgument := by
  simp only [State.mirrorFindReply]
  (repeat' split) <;> exact nofun

theorem mirrorReadReply_code {e : EntryId} : (s.mirrorReadReply p e).code ≠ .badArgument := by
  simp only [State.mirrorReadReply]
  (repeat' split) <;> exact nofun

theorem targetQueryReply_code {a : Byte} : (s.targetQueryReply p a).code ≠ .badArgument := by
  simp only [State.targetQueryReply]
  split <;> exact nofun

theorem declareBody_code {d : Declaration} : (declareBody d s).2.code ≠ .badArgument := by
  simp only [declareBody]
  (repeat' split) <;> exact nofun

theorem removeBody_code {a : Byte} : (removeBody a s).2.code ≠ .badArgument := by
  simp only [removeBody]
  (repeat' split) <;> exact nofun

theorem clearBody_code {a : Byte} : (clearBody a s).2.code ≠ .badArgument := by
  simp only [clearBody]
  (repeat' split) <;> exact nofun

theorem busResetBody_code : (busResetBody s).2.code ≠ .badArgument := by
  simp only [busResetBody]
  split <;> exact nofun

/-! ### The check stage tells the ranges -/

/-- BAD ARGUMENT alone has its byte (Table 10-6). -/
theorem byte_ne_badArgument {code : Code} (h : code ≠ .badArgument) : code.byte ≠ Code.badArgument.byte := by
  cases code with
  | badArgument => exact absurd rfl h
  | held q => cases q <;> decide
  | _ => decide

/-- A response with another code is not that of BAD ARGUMENT. -/
theorem bytes_ne_badArgument {r : Reply} (h : r.code ≠ .badArgument) : r.bytes ≠ (Reply.plain .badArgument).bytes := by
  intro hbytes
  exact byte_ne_badArgument h (Option.some.inj (congrArg (fun l : List Byte => l[1]?) hbytes))

/-- BAD ARGUMENT answers arguments outside their ranges, and another code stands in the response to any others. -/
def TellsRanges (c : Instr) (p : Port) (s : State) : Prop :=
  (badArguments s c = true → exec c s = .next (s.respond p ⟨.badArgument, []⟩))
    ∧ (badArguments s c = false → ∃ (t : State) (r : Reply), exec c s = .next t
        ∧ (t.port p).response = some r.bytes ∧ r.code ≠ .badArgument)

theorem standingRefusal_eq_none (hs : supervisorOnly c = true → s.supervisor = p)
    (ha : needsSession c = true → (s.port p).attached = true) : s.standingRefusal (standingOf c) p = none := by
  cases hc : supervisorOnly c with
  | true => simp [standingOf, hc, State.standingRefusal, hs hc, ha (needsSession_of_supervisorOnly hc)]
  | false =>
    cases hn : needsSession c with
    | true => simp [standingOf, hc, hn, State.standingRefusal, ha hn]
    | false => simp [standingOf, hc, hn, State.standingRefusal]

/-- A command that passes the standing checks tells its ranges when its argument check does and its body answers another
code. -/
theorem TellsRanges.of_command {α : Type} {args : Option α} {body : α → State → State × Reply}
    (h : s.takesHeader p = true) (hstanding : s.standingRefusal (standingOf c) p = none)
    (hexec : exec c s = .next (s.command p (standingOf c) args body)) (hargs : args = none ↔ badArguments s c = true)
    (hbody : ∀ a, (body a s).2.code ≠ .badArgument) : TellsRanges c p s := by
  refine ⟨fun hbad => hexec.trans (congrArg _ (command_bad h hstanding (hargs.2 hbad))), fun hgood => ?_⟩
  have htaken : args ≠ none := fun hnone => by simp [hargs.1 hnone] at hgood
  obtain ⟨a, ha⟩ := Option.ne_none_iff_exists'.1 htaken
  exact ⟨_, _, hexec.trans (congrArg _ (command_taken h hstanding ha)), by simp, hbody a⟩

theorem tellsRanges_header (hc : headerPort c = some p) (hw : c.wellFormed = true) (h : s.takesHeader p = true)
    (hr : c ≠ .repeatResponse p) (hstanding : s.standingRefusal (standingOf c) p = none) : TellsRanges c p s := by
  cases c <;> simp only [headerPort, reduceCtorEq, Option.some.injEq] at hc <;> subst hc
  case repeatResponse => exact absurd rfl hr
  case unknownCommand =>
    exact ⟨nofun, fun _ => ⟨_, .plain .unknownCommand, exec_unknownCommand h (unknown_of_wellFormed hw),
      by simp [Reply.plain], nofun⟩⟩
  case checkError => exact ⟨nofun, fun _ => ⟨_, .plain .checkError, exec_checkError h, by simp, nofun⟩⟩
  case info | status | detach | resetPart => exact .of_command h hstanding rfl ⟨nofun, nofun⟩ fun _ => nofun
  case attach => exact .of_command h hstanding rfl ⟨nofun, nofun⟩ fun _ => attachBody_code
  case cancel => exact .of_command h hstanding rfl ⟨nofun, nofun⟩ fun _ => cancelBody_code
  case fetch => exact .of_command h hstanding rfl ⟨nofun, nofun⟩ fun _ => fetchBody_code
  case readNotice => exact .of_command h hstanding rfl ⟨nofun, nofun⟩ fun _ => readNoticeBody_code
  case busReset => exact .of_command h hstanding rfl ⟨nofun, nofun⟩ fun _ => busResetBody_code
  case getParameter => exact .of_command h hstanding rfl paramArg_eq_none_iff fun _ => nofun
  case submit =>
    exact .of_command h hstanding (if_pos (beq_iff_eq.1 hw)) descriptorArg_eq_none fun _ => submitBody_code
  case setNoticeMask => exact .of_command h hstanding rfl maskArg_eq_none fun _ => nofun
  case lock => exact .of_command h hstanding rfl lockArg_eq_none fun _ => lockBody_code
  case renew => exact .of_command h hstanding rfl addressArg_eq_none fun _ => renewBody_code
  case unlock => exact .of_command h hstanding rfl addressArg_eq_none fun _ => unlockBody_code
  case forceUnlock => exact .of_command h hstanding rfl addressArg_eq_none fun _ => forceUnlockBody_code
  case mirrorDefine => exact .of_command h hstanding rfl defineArg_eq_none fun _ => mirrorDefineBody_code
  case mirrorDrop => exact .of_command h hstanding rfl entryArg_eq_none fun _ => mirrorDropBody_code
  case mirrorFind => exact .of_command h hstanding rfl keyArg_eq_none fun _ => mirrorFindReply_code
  case mirrorRead => exact .of_command h hstanding rfl entryArg_eq_none fun _ => mirrorReadReply_code
  case targetQuery => exact .of_command h hstanding rfl addressArg_eq_none fun _ => targetQueryReply_code
  case declareTarget => exact .of_command h hstanding rfl declareArg_eq_none fun _ => declareBody_code
  case removeTarget => exact .of_command h hstanding rfl addressArg_eq_none fun _ => removeBody_code
  case clearQuarantine => exact .of_command h hstanding rfl addressArg_eq_none fun _ => clearBody_code
  case setParameter => exact .of_command h hstanding rfl setParamArg_eq_none fun _ => nofun
  case evictPort => exact .of_command h hstanding rfl evictArg_eq_none fun _ => nofun

/-- Settles O11: each argument check tells its ranges, and no body answers BAD ARGUMENT. -/
theorem argumentsOutsideTheirRanges : Obligations.ArgumentsOutsideTheirRanges := by
  intro c s p hc hw h hr hs ha
  obtain ⟨hbad, hgood⟩ := tellsRanges_header hc hw h hr (standingRefusal_eq_none hs ha)
  refine ⟨hbad, fun hin t hexec hresponse => ?_⟩
  obtain ⟨t', r, hexec', hbytes, hcode⟩ := hgood hin
  obtain rfl : t = t' := Host.Outcome.next.inj (hexec.symm.trans hexec')
  exact bytes_ne_badArgument hcode (Option.some.inj (hbytes.symm.trans hresponse))

end Sys2Proof.Machine
